-- ==== Sys2Proof/Word.lean ====
section
/-! DEFINITION. Widths the KL6 manual fixes: bytes, rack times, link and lane numbers, and the sets that the
manual itself writes as bit masks (R185: "a set of links takes one byte, with bit n for link n"). Only types stand here. -/

namespace Sys2Proof

/-- One byte of a cell or of a request or response record (chapter 11). -/
abbrev Byte := BitVec 8

/-- A rack time, compare time, source stamp or frame time: an unsigned count of nanoseconds, 64 bits wide (5.1). -/
abbrev Time := BitVec 64

/-- A link number, 0 to 5 (0.7). -/
abbrev Link := Fin 6

/-- A lane number, 0 to 3 (0.5). -/
abbrev Lane := Fin 4

/-- A set of lanes, bit n for lane n. -/
abbrev LaneSet := BitVec 4

/-- A set of links or of frame requesters, bit n for link n or Fn (R185). -/
abbrev LinkSet := BitVec 6

/-- A set of trigger targets: bit n for link n, bit 6 for PANEL (R185). -/
abbrev TargetSet := BitVec 7

/-- A set of notice kinds in the form of the NOTICE body (Table 11.2 (1), Note 1). -/
abbrev NoticeSet := BitVec 7

/-- A stream id as the cell header carries it, 12 bits (Table 11.1 (1)). -/
abbrev StreamId := BitVec 12

/-- A 32-bit event counter (R19, R166). -/
abbrev Counter := BitVec 32

/-- A pool slot number, 0 to 95 (R152). -/
abbrev SlotIx := Fin 96

/-- A route table index, 0 to 63 (8.1). -/
abbrev RouteIx := Fin 64

/-- A trigger table index, 0 to 15 (7.1). -/
abbrev TrigIx := Fin 16

end Sys2Proof
end

