-- ==== Sys2Proof/Syntax.lean ====
section
/-! DEFINITION. The commands of the KL6: one constructor for each row of spec/opcode_table.json, with the operands the
row's rule needs. The rows are the part's steps (section 95): events at the pins and on the cables, expiries of its
timers, steps of its own long operations, and the requests of its seven requesters. The table gives no operand list;
each operand below is what the governing rule reads from outside (log 1). -/

namespace Sys2Proof

/-- The seven requesters (0.6): the rack controller on the RCP, and the frame controller Fn on link n. -/
inductive Requester where
  | rcp
  | frame (n : Link)
  deriving DecidableEq, Repr

/-- The direction of a change of an input pin. -/
inductive Edge where
  | rising
  | falling
  deriving DecidableEq, Repr

/-- The two kinds of pulse output (R65, R67). -/
inductive PulseLine where
  | trig (n : Link)
  | trigout
  deriving DecidableEq, Repr

/-- The content of a cell received with a good CRC: the header fields of Table 11.1 (1) after the kind and the length,
as they stood on the cable, and the body bytes. -/
structure RxCell where
  flags : Byte
  stream : BitVec 16
  sequence : BitVec 16
  stamp : Time
  body : List Byte
  deriving DecidableEq, Repr

/-- A request record as it arrives (Table 11.3 (1)): who sent it, its tag and its argument bytes. The kind is the
command's own. -/
structure Request where
  requester : Requester
  tag : Byte
  args : List Byte
  deriving DecidableEq, Repr

/-- What of an SPI read transaction a command carries out (R170): the whole of it, or its beginning or end alone, so that
other commands can come while it is in progress (log 23). `count` is the number of bytes shifted out after the type
byte. -/
inductive ReadPart where
  | whole (count : Nat)
  | begins
  | ends (count : Nat)
  deriving DecidableEq, Repr

/-- The commands, in the order of the table. Where a row's moment is a clock's (an expiry, a send event), the command
says that the moment has come (log 2). -/
inductive Instr where
  /-- R20, R180. The RESET input is asserted. -/
  | resetAssert
  /-- R101, R150, R60. The RESET input is released. -/
  | resetRelease
  /-- R150. Stream Switch initialisation completes. -/
  | switchInitialisationComplete
  /-- R15, R51. A falling edge on the PRESENT pin of link `n`. `edgeFirst`: in FUNCTION mode the roster takes the
  presence edge before the link DOWN ("either may be taken first", R51). -/
  | presentFall (n : Link) (edgeFirst : Bool)
  /-- R36. A rising edge on the PRESENT pin of link `n`. -/
  | presentRise (n : Link)
  /-- R52. An edge on the SWAPREQ pin of link `n`; only a rising edge is a swap request (R36). -/
  | swapRequest (n : Link) (edge : Edge)
  /-- R2. Partner training activity appears on, or disappears from, the receivers of link `n`. -/
  | trainingActivity (n : Link) (seen : Bool)
  /-- R3. All four lanes of link `n` are aligned at the same time. -/
  | trainingAllAligned (n : Link)
  /-- R4. The training limit of link `n` expires with the lanes `aligned` aligned. -/
  | trainingLimitExpiry (n : Link) (aligned : LaneSet)
  /-- R9. Lane `lane` of link `n` loses alignment. -/
  | alignmentLost (n : Link) (lane : Lane)
  /-- R10. All lanes of the active lane set of link `n` are aligned at the same time. -/
  | recoveryAllAligned (n : Link)
  /-- R10. The recovery limit of link `n` expires with the lanes `aligned` aligned. -/
  | recoveryLimitExpiry (n : Link) (aligned : LaneSet)
  /-- R8. A cell received on link `n` fails its CRC; the decoders marked symbol errors on the lanes `marked`. -/
  | cellErrored (n : Link) (marked : LaneSet)
  /-- R7. A cell of good CRC and of a kind not accepted from a frame arrives on link `n`. -/
  | unknownKindCell (n : Link)
  /-- R145. A SAMPLE cell arrives on link `n`. -/
  | sampleCellReceived (n : Link) (cell : RxCell)
  /-- R89. A SYNC_REPLY cell arrives on link `n`. -/
  | syncReplyReceived (n : Link) (cell : RxCell)
  /-- R131. A TRIGGER cell arrives on link `n`. -/
  | triggerCellReceived (n : Link) (cell : RxCell)
  /-- R40. An IDENT cell arrives on link `n`. -/
  | identReceived (n : Link) (cell : RxCell)
  /-- R183. A CONTROL cell with a malformed body arrives on link `n`. -/
  | malformedControlCell (n : Link) (body : List Byte)
  /-- R13. The transmission in progress on link `n` completes. -/
  | cellTransmissionComplete (n : Link)
  /-- R23. The dwell of the probe on link `n` ends. -/
  | dwellEnd (n : Link)
  /-- R39. The identity wait of entry `n` expires. -/
  | identityWaitExpiry (n : Link)
  /-- R46. The drain limit of entry `n` expires. -/
  | drainLimitExpiry (n : Link)
  /-- R88. A sync exchange falls due on link `n`. -/
  | exchangeDue (n : Link)
  /-- R89. The reply limit of the open exchange of link `n` expires. -/
  | replyLimitExpiry (n : Link)
  /-- R84. The holdover timer reaches the holdover limit. -/
  | holdoverLimitExpiry
  /-- R122. The rack time reaches the send time of trigger entry `i`. -/
  | sendEvent (i : TrigIx)
  /-- R123. The rack time reaches the compare time of the pending pulse of trigger entry `i`. -/
  | panelEvent (i : TrigIx)
  /-- R65. The pulse width on a pulse output ends. -/
  | pulseEnd (line : PulseLine)
  /-- R66. An edge on the TRIG pin of link `n`, driven from outside. -/
  | trigEdge (n : Link) (edge : Edge)
  /-- R66. An edge on the TRIGIN pin. -/
  | triginEdge (edge : Edge)
  /-- R163. The rack time reaches the expiry of the hold-list entry of stream `stream` and egress link `egress`. -/
  | holdExpiry (stream : StreamId) (egress : Link)
  /-- R147. The aging timer expires. -/
  | agingTimerExpiry
  /-- R139, R141. The write unit starts the oldest waiting write, a ROUTE_SET or ROUTE_CLEAR. -/
  | routeWriteStart
  /-- R139, R141. The route write in progress completes. -/
  | routeWriteComplete
  /-- R148. The write unit starts the oldest waiting write, an aging sweep. -/
  | agingSweepStart
  /-- R148. The aging sweep in progress completes. -/
  | agingSweepComplete
  /-- R170, R184. An SPI read transaction, or a part of one. -/
  | rcpReadTransaction (part : ReadPart)
  /-- R170, R184. An SPI transaction, with the bytes shifted in, that is cut short or of unknown type. -/
  | rcpTransactionDiscarded (bytes : List Byte)
  /-- R168. A request whose kind `kind` is unknown. -/
  | badkind (q : Request) (kind : Byte)
  /-- R16, kind 10H. -/
  | linkRead (q : Request)
  /-- R17, kind 11H. -/
  | linkEnable (q : Request)
  /-- R18, kind 12H. -/
  | linkRetrain (q : Request)
  /-- R28, kind 13H, operation START. -/
  | linkMarginStart (q : Request)
  /-- R29, kind 13H, operation CANCEL. -/
  | linkMarginCancel (q : Request)
  /-- R30, kind 14H. -/
  | marginResult (q : Request)
  /-- R54, kind 20H. -/
  | rosterRead (q : Request)
  /-- R55, kind 21H. -/
  | frameAdmit (q : Request)
  /-- R56, kind 22H. -/
  | frameRelease (q : Request)
  /-- R57, kind 23H. -/
  | frameRestore (q : Request)
  /-- R58, kind 24H. -/
  | frameEvict (q : Request)
  /-- R59, kind 25H. -/
  | rosterConfig (q : Request)
  /-- R68, kind 30H. -/
  | lineRead (q : Request)
  /-- R69, kind 31H. -/
  | lineWrite (q : Request)
  /-- R70, kind 32H. -/
  | lineMode (q : Request)
  /-- R71, kind 33H, operation PRELOAD. -/
  | lineHoldPreload (q : Request)
  /-- R72, kind 33H, operation SAMPLE. -/
  | lineHoldSample (q : Request)
  /-- R98, kind 40H. -/
  | timeRead (q : Request)
  /-- R99, kind 41H. -/
  | timeSource (q : Request)
  /-- R100, kind 42H. -/
  | timeConfig (q : Request)
  /-- R115, kind 43H. -/
  | syncRead (q : Request)
  /-- R119, kind 50H with an index. -/
  | trigArm (q : Request)
  /-- R120, kind 50H with ANY. -/
  | trigArmAny (q : Request)
  /-- R129, kind 51H. -/
  | trigCancel (q : Request)
  /-- R130, kind 52H. -/
  | trigRelease (q : Request)
  /-- R130, kind 53H. -/
  | trigRead (q : Request)
  /-- R118, kind 56H. -/
  | trigConfig (q : Request)
  /-- R134, kind 54H. -/
  | capturePeek (q : Request)
  /-- R134, kind 55H. -/
  | capturePop (q : Request)
  /-- R138, kind 60H. -/
  | routeSet (q : Request)
  /-- R141, kind 61H. -/
  | routeClear (q : Request)
  /-- R143, kind 62H. -/
  | routeRead (q : Request)
  /-- R144, kind 63H. -/
  | routeFirst (q : Request)
  /-- R144, kind 64H. -/
  | routeNext (q : Request)
  /-- R149, kind 65H. -/
  | streamConfig (q : Request)
  /-- R172, kind 70H, operation WRITE. -/
  | accessSetWrite (q : Request)
  /-- R172, kind 70H, operation EMPTY. -/
  | accessSetEmpty (q : Request)
  /-- R172, kind 71H. -/
  | accessRead (q : Request)
  /-- R174, kind 72H without the clear option. -/
  | counterRead (q : Request)
  /-- R174, kind 72H with the clear option. -/
  | counterReadClear (q : Request)
  /-- R175, kind 73H. -/
  | noticeRead (q : Request)
  /-- R175, kind 74H. -/
  | noticeMask (q : Request)
  /-- R178, kind 75H. -/
  | hubStatus (q : Request)
  /-- R179, kind 76H. -/
  | hubReset (q : Request)
  /-- R24. The lane decoder finds a symbol error on lane `lane` of link `n`. -/
  | symbolError (n : Link) (lane : Lane)
  deriving DecidableEq, Repr

end Sys2Proof
end

