-- ==== Sys2Proof/Machine/Bytes.lean ====
section
/-! DEFINITION. Bytes on the cable and on the SPI port, as far as no state is read: byte order, the CRC of R182, the
symbols of a cell and the received cell of R181, the request record of Table 11.3 (1), and the request kinds. -/

namespace Sys2Proof.Machine

/-! ### Byte order: most significant byte first (chapter 11) -/

/-- The two bytes of a 16-bit field. -/
def be16 (x : BitVec 16) : List Byte := [x.extractLsb' 8 8, x.extractLsb' 0 8]

/-- The four bytes of a 32-bit field. -/
def be32 (x : BitVec 32) : List Byte :=
  [x.extractLsb' 24 8, x.extractLsb' 16 8, x.extractLsb' 8 8, x.extractLsb' 0 8]

/-- The eight bytes of a 64-bit field. -/
def be64 (x : BitVec 64) : List Byte :=
  be32 (x.extractLsb' 32 32) ++ be32 (x.extractLsb' 0 32)

/-- The number that a list of bytes spells, most significant byte first. -/
def beNat (bs : List Byte) : Nat := bs.foldl (fun a b => a * 256 + b.toNat) 0

/-! ### The CRC (R182) -/

/-- One bit of the reflected 32-bit CRC: the generator 04C11DB7H, taken least significant bit first, is EDB88320H. -/
def crcBit (r : BitVec 32) : BitVec 32 :=
  if r.getLsbD 0 then (r >>> 1) ^^^ 0xEDB88320#32 else r >>> 1

/-- One byte, least significant bit first (R182). -/
def crcByte (r : BitVec 32) (b : Byte) : BitVec 32 :=
  crcBit (crcBit (crcBit (crcBit (crcBit (crcBit (crcBit (crcBit (r ^^^ b.setWidth 32))))))))

/-- The 32-bit result over a list of bytes: the register starts at FFFFFFFFH and the result is combined with FFFFFFFFH
(R182). -/
def crc32 (bs : List Byte) : BitVec 32 := bs.foldl crcByte 0xFFFFFFFF#32 ^^^ 0xFFFFFFFF#32

/-- The four CRC bytes, least significant byte first (R182). -/
def crcBytes (bs : List Byte) : List Byte := (be32 (crc32 bs)).reverse

/-! ### A received cell (R181, R182) -/

/-- What the cable carries of cells: the start-of-cell symbol of the lane code, and the bytes (R181). Idle fill carries
neither. -/
inductive Symbol where
  | startOfCell
  | data (b : Byte)
  deriving DecidableEq, Repr

/-- A cell as its sender places it: the start-of-cell symbol before byte 0 (R181). -/
def cellSymbols (bytes : List Byte) : List Symbol := .startOfCell :: bytes.map .data

/-- A symbol that has arrived, with the lanes on which the lane decoders marked a symbol error at it (R8). -/
structure RxSymbol where
  symbol : Symbol
  marked : LaneSet
  deriving DecidableEq, Repr

/-- What has arrived from one start-of-cell symbol up to the next: the bytes, and every lane marked in it (R8, R181). -/
structure Segment where
  bytes : List Byte
  marked : LaneSet
  deriving DecidableEq, Repr

/-- Cuts a stream at its start-of-cell symbols: first what arrived before any of them, then the segment of each (R181). -/
def cutStream : List RxSymbol → Segment × List Segment
  | [] => ({ bytes := [], marked := 0 }, [])
  | x :: rest =>
    let (early, later) := cutStream rest
    match x.symbol with
    | .startOfCell => ({ bytes := [], marked := 0 }, { early with marked := x.marked ||| early.marked } :: later)
    | .data b => ({ bytes := b :: early.bytes, marked := x.marked ||| early.marked }, later)

/-- The greatest body length that is framed (R181). -/
def maxBody : Nat := 1028

/-- The body length that a cell's length field gives it (Table 11.1 (1)). -/
def cellLength (bs : List Byte) : Nat := beNat ((bs.drop 2).take 2)

/-- A cell's length is one that is framed, and is complete: 16 header bytes, the body, 4 CRC bytes (R181). -/
def wholeCell (bs : List Byte) : Bool := decide (cellLength bs ≤ maxBody ∧ 20 + cellLength bs ≤ bs.length)

/-- The segments of a stream that are cells. Bytes before the first start-of-cell symbol are part of none. Each segment
that the next start-of-cell symbol has ended is one, cut short or not; the last is one as soon as its length is complete
(R181, log 29). -/
def arrivedCells (stream : List RxSymbol) : List Segment :=
  let cells := (cutStream stream).2
  cells.dropLast ++ cells.getLast?.toList.filter fun g => wholeCell g.bytes

/-- What the receiver of a link makes of the bytes between one start-of-cell symbol and the next. -/
inductive Framed where
  /-- A bad CRC, a length above 1,028, or a cell ended early by the next start-of-cell symbol. -/
  | errored
  /-- A good CRC. -/
  | good (kind : Byte) (cell : RxCell)
  deriving DecidableEq, Repr

/-- Delimits a cell by its length field and checks its CRC (R181, R182). Bytes after the CRC are not read. -/
def frameCell (bs : List Byte) : Framed :=
  let len := cellLength bs
  if wholeCell bs then
    let covered := bs.take (16 + len)
    if (bs.drop (16 + len)).take 4 = crcBytes covered then
      .good (bs.headD 0)
        { flags := (bs.drop 1).headD 0
          stream := BitVec.ofNat 16 (beNat ((bs.drop 4).take 2))
          sequence := BitVec.ofNat 16 (beNat ((bs.drop 6).take 2))
          stamp := BitVec.ofNat 64 (beNat ((bs.drop 8).take 8))
          body := covered.drop 16 }
    else .errored
  else .errored

/-- The stream id of a header: bits 0-11, the reserved bits unread (Table 11.1 (1), R181). -/
def headerStream (c : RxCell) : StreamId := c.stream.extractLsb' 0 12

/-- T2_VALID, bit 2 of the flags (Table 11.1 (1)). -/
def headerT2Valid (c : RxCell) : Bool := c.flags.getLsbD 2

/-- T3_VALID, bit 3 of the flags (Table 11.1 (1)). -/
def headerT3Valid (c : RxCell) : Bool := c.flags.getLsbD 3

/-! ### Request records (Table 11.3 (1), R183, R184) -/

/-- The length in bytes that a record's own argument length gives it. -/
def recordLength (bs : List Byte) : Nat := 4 + beNat ((bs.drop 2).take 2)

/-- A CONTROL body is malformed when it is shorter than the request header, or its argument length disagrees with the
body length (R183). -/
def controlMalformed (body : List Byte) : Bool :=
  decide (body.length < 4 ∨ body.length ≠ recordLength body)

/-- A request transaction holds a whole record when 4 + argument length bytes have followed the type byte (R184). -/
def recordWhole (bs : List Byte) : Bool := decide (4 ≤ bs.length ∧ recordLength bs ≤ bs.length)

/-- A transaction on the port is discarded when it is of neither type, or is a request cut short (R170, R184). -/
def spiDiscarded : List Byte → Bool
  | [] => true
  | t :: rest => if t = 0x01#8 then !recordWhole rest else decide (t ≠ 0x02#8)

/-! ### Request kinds (chapters 1 to 10, Table 11.4 (1)) -/

def kindLinkRead : Byte := 0x10
def kindLinkEnable : Byte := 0x11
def kindLinkRetrain : Byte := 0x12
def kindLinkMargin : Byte := 0x13
def kindMarginResult : Byte := 0x14
def kindRosterRead : Byte := 0x20
def kindFrameAdmit : Byte := 0x21
def kindFrameRelease : Byte := 0x22
def kindFrameRestore : Byte := 0x23
def kindFrameEvict : Byte := 0x24
def kindRosterConfig : Byte := 0x25
def kindLineRead : Byte := 0x30
def kindLineWrite : Byte := 0x31
def kindLineMode : Byte := 0x32
def kindLineHold : Byte := 0x33
def kindTimeRead : Byte := 0x40
def kindTimeSource : Byte := 0x41
def kindTimeConfig : Byte := 0x42
def kindSyncRead : Byte := 0x43
def kindTrigArm : Byte := 0x50
def kindTrigCancel : Byte := 0x51
def kindTrigRelease : Byte := 0x52
def kindTrigRead : Byte := 0x53
def kindCapturePeek : Byte := 0x54
def kindCapturePop : Byte := 0x55
def kindTrigConfig : Byte := 0x56
def kindRouteSet : Byte := 0x60
def kindRouteClear : Byte := 0x61
def kindRouteRead : Byte := 0x62
def kindRouteFirst : Byte := 0x63
def kindRouteNext : Byte := 0x64
def kindStreamConfig : Byte := 0x65
def kindAccessSet : Byte := 0x70
def kindAccessRead : Byte := 0x71
def kindCounterRead : Byte := 0x72
def kindNoticeRead : Byte := 0x73
def kindNoticeMask : Byte := 0x74
def kindHubStatus : Byte := 0x75
def kindHubReset : Byte := 0x76

/-- Every kind of Table 11.4 (1). -/
def knownKinds : List Byte :=
  [kindLinkRead, kindLinkEnable, kindLinkRetrain, kindLinkMargin, kindMarginResult,
   kindRosterRead, kindFrameAdmit, kindFrameRelease, kindFrameRestore, kindFrameEvict, kindRosterConfig,
   kindLineRead, kindLineWrite, kindLineMode, kindLineHold,
   kindTimeRead, kindTimeSource, kindTimeConfig, kindSyncRead,
   kindTrigArm, kindTrigCancel, kindTrigRelease, kindTrigRead, kindCapturePeek, kindCapturePop, kindTrigConfig,
   kindRouteSet, kindRouteClear, kindRouteRead, kindRouteFirst, kindRouteNext, kindStreamConfig,
   kindAccessSet, kindAccessRead, kindCounterRead, kindNoticeRead, kindNoticeMask, kindHubStatus, kindHubReset]

/-- The kinds reserved to the RCP (R168, step 3). -/
def reservedKinds : List Byte :=
  [kindRosterConfig, kindTrigConfig, kindStreamConfig, kindAccessSet, kindHubReset]

end Sys2Proof.Machine
end

