-- ==== Sys2Proof/WellFormed.lean ====
section
/-! DEFINITION. Which commands are well formed: the bytes a command carries can have arrived, and they are bytes of
that command's own row. Every meaning is total on ill-formed commands too. -/

namespace Sys2Proof

open Machine

/-- The argument bytes fit the 2-byte argument length (Table 11.3 (1)) and, for a frame requester, a CONTROL body
(Table 11.1 (1)). -/
def requestFits (q : Request) : Bool :=
  match q.requester with
  | .rcp => decide (q.args.length < 65536)
  | .frame _ => decide (q.args.length + 4 ≤ maxBody)

/-- The body of a received cell is one that is framed (R181). -/
def cellFits (c : RxCell) : Bool := decide (c.body.length ≤ maxBody)

/-- The argument byte at a position selects the operation `code` (Table 11.4 (1)). -/
def selects (q : Request) (at_ : Nat) (code : Byte) : Bool := decide (q.args[at_]? = some code)

/-- A command whose bytes are of its own row. -/
def Instr.wellFormed : Instr → Bool
  | .resetAssert => true
  | .resetRelease => true
  | .switchInitialisationComplete => true
  | .presentFall _ _ => true
  | .presentRise _ => true
  | .swapRequest _ _ => true
  | .trainingActivity _ _ => true
  | .trainingAllAligned _ => true
  | .trainingLimitExpiry _ _ => true
  | .alignmentLost _ _ => true
  | .recoveryAllAligned _ => true
  | .recoveryLimitExpiry _ _ => true
  | .cellErrored _ _ => true
  | .unknownKindCell _ => true
  | .sampleCellReceived _ c => cellFits c
  | .syncReplyReceived _ c => cellFits c
  | .triggerCellReceived _ c => cellFits c
  | .identReceived _ c => cellFits c
  | .malformedControlCell _ body => controlMalformed body && decide (body.length ≤ maxBody)
  | .cellTransmissionComplete _ => true
  | .dwellEnd _ => true
  | .identityWaitExpiry _ => true
  | .drainLimitExpiry _ => true
  | .exchangeDue _ => true
  | .replyLimitExpiry _ => true
  | .holdoverLimitExpiry => true
  | .sendEvent _ => true
  | .panelEvent _ => true
  | .pulseEnd _ => true
  | .trigEdge _ _ => true
  | .triginEdge _ => true
  | .holdExpiry _ _ => true
  | .agingTimerExpiry => true
  | .routeWriteStart => true
  | .routeWriteComplete => true
  | .agingSweepStart => true
  | .agingSweepComplete => true
  | .rcpReadTransaction _ => true
  | .rcpTransactionDiscarded bytes => spiDiscarded bytes
  | .badkind q kind => requestFits q && !knownKinds.contains kind
  | .linkRead q => requestFits q
  | .linkEnable q => requestFits q
  | .linkRetrain q => requestFits q
  | .linkMarginStart q => requestFits q && !selects q 1 0x01
  | .linkMarginCancel q => requestFits q && selects q 1 0x01
  | .marginResult q => requestFits q
  | .rosterRead q => requestFits q
  | .frameAdmit q => requestFits q
  | .frameRelease q => requestFits q
  | .frameRestore q => requestFits q
  | .frameEvict q => requestFits q
  | .rosterConfig q => requestFits q
  | .lineRead q => requestFits q
  | .lineWrite q => requestFits q
  | .lineMode q => requestFits q
  | .lineHoldPreload q => requestFits q && !selects q 1 0x01
  | .lineHoldSample q => requestFits q && selects q 1 0x01
  | .timeRead q => requestFits q
  | .timeSource q => requestFits q
  | .timeConfig q => requestFits q
  | .syncRead q => requestFits q
  | .trigArm q => requestFits q && !selects q 0 0xFF
  | .trigArmAny q => requestFits q && selects q 0 0xFF
  | .trigCancel q => requestFits q
  | .trigRelease q => requestFits q
  | .trigRead q => requestFits q
  | .trigConfig q => requestFits q
  | .capturePeek q => requestFits q
  | .capturePop q => requestFits q
  | .routeSet q => requestFits q
  | .routeClear q => requestFits q
  | .routeRead q => requestFits q
  | .routeFirst q => requestFits q
  | .routeNext q => requestFits q
  | .streamConfig q => requestFits q
  | .accessSetWrite q => requestFits q && !selects q 1 0x01
  | .accessSetEmpty q => requestFits q && selects q 1 0x01
  | .accessRead q => requestFits q
  | .counterRead q => requestFits q && !selects q 1 0x01
  | .counterReadClear q => requestFits q && selects q 1 0x01
  | .noticeRead q => requestFits q
  | .noticeMask q => requestFits q
  | .hubStatus q => requestFits q
  | .hubReset q => requestFits q
  | .symbolError _ _ => true

end Sys2Proof
end

