-- ==== Sys2Proof/Decode.lean ====
section
/-! DEFINITION. From bits to commands. No row of spec/opcode_table.json gives bits, so no word spells a command
(`decodeTableWord`). The manual itself says how what arrives on a cable and on the SPI port selects a row: the received
symbols and cells of R7 and R181 to R183, and the request records of R168, R184 and Table 11.4 (1). -/

namespace Sys2Proof

open Machine

/-- The command a word spells by the table's bits: the table gives no row any bits. -/
def decodeTableWord (_nbits _w : Nat) : Option Instr := none

/-- The row of a request whose kind two rows share, by the argument byte that selects the operation. -/
def bySelect (q : Request) (at_ : Nat) (code : Byte) (chosen other : Request → Instr) : Instr :=
  if selects q at_ code then chosen q else other q

/-- The row of a request of kind `kind` (R168, Table 11.4 (1)). -/
def requestRow (q : Request) (kind : Byte) : Instr :=
  match kind with
  | 0x10#8 => .linkRead q
  | 0x11#8 => .linkEnable q
  | 0x12#8 => .linkRetrain q
  | 0x13#8 => bySelect q 1 0x01 .linkMarginCancel .linkMarginStart
  | 0x14#8 => .marginResult q
  | 0x20#8 => .rosterRead q
  | 0x21#8 => .frameAdmit q
  | 0x22#8 => .frameRelease q
  | 0x23#8 => .frameRestore q
  | 0x24#8 => .frameEvict q
  | 0x25#8 => .rosterConfig q
  | 0x30#8 => .lineRead q
  | 0x31#8 => .lineWrite q
  | 0x32#8 => .lineMode q
  | 0x33#8 => bySelect q 1 0x01 .lineHoldSample .lineHoldPreload
  | 0x40#8 => .timeRead q
  | 0x41#8 => .timeSource q
  | 0x42#8 => .timeConfig q
  | 0x43#8 => .syncRead q
  | 0x50#8 => bySelect q 0 0xFF .trigArmAny .trigArm
  | 0x51#8 => .trigCancel q
  | 0x52#8 => .trigRelease q
  | 0x53#8 => .trigRead q
  | 0x54#8 => .capturePeek q
  | 0x55#8 => .capturePop q
  | 0x56#8 => .trigConfig q
  | 0x60#8 => .routeSet q
  | 0x61#8 => .routeClear q
  | 0x62#8 => .routeRead q
  | 0x63#8 => .routeFirst q
  | 0x64#8 => .routeNext q
  | 0x65#8 => .streamConfig q
  | 0x70#8 => bySelect q 1 0x01 .accessSetEmpty .accessSetWrite
  | 0x71#8 => .accessRead q
  | 0x72#8 => bySelect q 1 0x01 .counterReadClear .counterRead
  | 0x73#8 => .noticeRead q
  | 0x74#8 => .noticeMask q
  | 0x75#8 => .hubStatus q
  | 0x76#8 => .hubReset q
  | k => .badkind q k

/-- The command of a whole request record (Table 11.3 (1)). Bytes beyond the record are not read (R184). -/
def requestCommand (rq : Requester) (record : List Byte) : Instr :=
  requestRow
    { requester := rq
      tag := record.headD 0
      args := (record.take (recordLength record)).drop 4 }
    ((record.drop 1).headD 0)

/-- The command that a cell received on link `n` is, from the bytes that follow its start-of-cell symbol and the lanes
the decoders marked with symbol errors (R7, R8, R181, R182, R183). -/
def cellCommand (n : Link) (marked : LaneSet) (bytes : List Byte) : Instr :=
  match frameCell bytes with
  | .errored => .cellErrored n marked
  | .good kind c =>
    match kind with
    | 0x01#8 => .sampleCellReceived n c
    | 0x11#8 => .syncReplyReceived n c
    | 0x20#8 => .triggerCellReceived n c
    | 0x50#8 => .identReceived n c
    | 0x40#8 =>
      if controlMalformed c.body then .malformedControlCell n c.body
      else requestCommand (.frame n) c.body
    | _ => .unknownKindCell n

/-- The commands that a stream received on link `n` is: one for each cell, in the order in which the cells arrived (R7,
R181). -/
def cableCommands (n : Link) (stream : List RxSymbol) : List Instr :=
  (arrivedCells stream).map fun g => cellCommand n g.marked g.bytes

/-- The command of one SPI transaction, from the bytes shifted in between the fall and the rise of chip select; a read
transaction shifts out as many bytes as are shifted in after the type byte (R170, R184). -/
def spiCommand (bytes : List Byte) : Instr :=
  if spiDiscarded bytes then .rcpTransactionDiscarded bytes
  else
    match bytes with
    | 0x01#8 :: record => requestCommand .rcp record
    | _ => .rcpReadTransaction (.whole (bytes.length - 1))

end Sys2Proof
end

