-- ==== Sys2Proof/Config.lean ====
section
/-! DEFINITION. The free values of the model: constants without a body, so that no proof can see what they are and
every claim holds whatever they are. Each stands for a value the manual leaves open, and each is named in the
assumption log. -/

namespace Sys2Proof

/-- DESIGN CHOICE (log 3). The 64-bit time the part holds where the exact result of a time calculation (the argument)
lies outside 0 to 2^64 - 1. The manual states no result there (R76, R95, R113, R124, R133). -/
opaque Config.timeOutside : Int → Time

/-- DESIGN CHOICE (log 4). The byte that encodes the answer to a "whether ..." result (R16, R30, R68, R98, R115, R139,
R143): R185 gives no code for it, since no table or rule lists its values. -/
opaque Config.whetherCode : Bool → Byte

/-- DESIGN CHOICE (log 5). Whether an elapsed or remaining time of so many nanoseconds, not a whole number of
microseconds, is reported rounded up. R185 gives the unit and not the rounding. -/
opaque Config.microsecondRoundsUp : Nat → Bool

/-- DESIGN CHOICE (log 6). The byte the port shifts out at position `i` after the whole of a held response, when
chip select is still low (R184 states the fill only where no response is held). -/
opaque Config.spiAfterRecord : Nat → Byte

end Sys2Proof
end

