-- ==== Sys2Proof/Machine/State.lean ====
section
/-! DEFINITION. The state of the KL6: every register, table, queue, timer, counter and pin the manual gives it, as plain
data, and the state after reset. Each block's part is a structure of its own; a part kept per link is a vector of six. -/

namespace Sys2Proof.Machine

/-- The reasons the block can stop with. The manual names no behaviour that stops the KL6 (a request that cannot be
carried out is answered with a status), so there is none: no meaning raises a fault (safe). -/
inductive Fault where
  deriving DecidableEq, Repr

/-- The reasons a command can have no meaning in the model. -/
inductive Refusal where
  /-- Raised by an arm of `exec` whose command the model does not give a meaning yet; no arm raises it (safe). -/
  | notModelled (mnemonic : String)
  deriving DecidableEq, Repr

/-! ### Responses (chapter 10) -/

/-- The statuses of Table 10.1 (1). -/
inductive Status where
  | ok | accepted | clamped | noAccessClear | busy | noAccess | badArg | notFound | full | notReady | state | badKind
  deriving DecidableEq, Repr

/-- A response record (Table 11.3 (2)): the results are its result bytes. -/
structure Response where
  tag : Byte
  kind : Byte
  status : Status
  prevUnread : Bool
  endFlag : Bool
  results : List Byte
  deriving DecidableEq, Repr

/-! ### Timebase and follower states, used in cells -/

/-- The timebase states of Table 5.4 (1). -/
inductive TimebaseState where
  | freerun | acquiring | locked | holdover
  deriving DecidableEq, Repr

/-- The follower states of Table 6.2 (1). -/
inductive FollowerState where
  | untimed | settling | timed
  deriving DecidableEq, Repr

/-! ### Link ports (chapter 1) -/

/-- The link states of Table 1.1 (1). -/
inductive LinkState where
  | off | down | training | up | recovery
  deriving DecidableEq, Repr

/-- The cells of the SYNC category (R88, R108). -/
inductive SyncCell where
  | req (number : BitVec 16)
  | result (number : BitVec 16) (theta : Int) (delay : Nat) (follower : FollowerState) (timebase : TimebaseState)
  deriving DecidableEq, Repr

/-- A TRIGGER cell the KL6 sends (R122). -/
structure TrigCell where
  compare : Time
  code : BitVec 4
  index : TrigIx
  late : Bool
  deriving DecidableEq, Repr

/-- The cells of the HOLD and RESUME category (R164). -/
inductive HoldCell where
  | hold (stream : StreamId) (time : BitVec 16)
  | resume (stream : StreamId)
  deriving DecidableEq, Repr

/-- The cells of the CONTROL and NOTICE category (R171, R176). -/
inductive CtrlCell where
  | control (r : Response)
  | notice (set : NoticeSet)
  deriving DecidableEq, Repr

/-- A cell offered to a transmit arbiter, by its category (R12). -/
inductive TxCell where
  | sync (c : SyncCell)
  | trig (c : TrigCell)
  | hold (c : HoldCell)
  | ctrl (c : CtrlCell)
  deriving DecidableEq, Repr

/-- What a transmitter is sending: a cell of the arbiter, or the block of a pool slot (R13). -/
inductive Transit where
  | cell (c : TxCell)
  | block (slot : SlotIx)
  deriving DecidableEq, Repr

/-- A link port (1.1). `limit` is the oscillator moment at which the training or recovery limit ends; `activity` is the
partner's training activity at the receivers (an input); `trigHead` is a TRIGGER cell returned to the head of its
category by R9; `lastSent` is the model's observation of the last completed transmission (log 8). -/
structure LinkPort where
  state : LinkState
  enabled : Bool
  lanes : LaneSet
  failCount : Nat
  errRun : Nat
  limit : Option Nat
  activity : Bool
  waitSync : List SyncCell
  trigHead : Option TrigCell
  waitTrig : List TrigCell
  waitHold : List HoldCell
  waitCtrl : List CtrlCell
  tx : Option Transit
  lastSent : Option TxCell
  deriving DecidableEq, Repr

/-- R20. -/
def LinkPort.fullReset : LinkPort :=
  { state := .down, enabled := true, lanes := 0, failCount := 0, errRun := 0, limit := none, activity := false,
    waitSync := [], trigHead := none, waitTrig := [], waitHold := [], waitCtrl := [], tx := none, lastSent := none }

/-- The counters of a link's set, in the order of Table 1.9 (1) and then Table 9.6 (1). -/
inductive LinkCounter where
  | cellsIn | cellsOut | cellErrors | recoveries | laneDrops | trainFails
  | blocksIn | blocksOut | dropNoroute | dropSource | dropFilter | dropUntimed | dropGate | dropPool
  | dropQueue | dropDrain | dropNotactive | flushed | holdsSent | holdsRefused | syncDiscarded | trigMissed
  deriving DecidableEq, Repr

/-- A link's counter set (R19, R166), indexed in the order of `LinkCounter`. -/
abbrev LinkCounters := Vector Counter 22

/-! ### Lane Margin Units (chapter 2) -/

/-- Who started a probe (Table 2.1 (1)). -/
inductive Starter where
  | request (rq : Requester)
  | admission
  deriving DecidableEq, Repr

inductive ProbeKind where
  | timing | level
  deriving DecidableEq, Repr

inductive ProbeDirection where
  | plus | minus
  deriving DecidableEq, Repr

/-- A probe in progress: the record of Table 2.1 (1), its working values, and the oscillator moment at which the dwell
ends. -/
structure Probe where
  starter : Starter
  lane : Lane
  kind : ProbeKind
  direction : ProbeDirection
  stepLimit : Nat
  errorLimit : Nat
  step : Nat
  errors : Nat
  lastWithin : Nat
  dwellEnds : Nat
  deriving DecidableEq, Repr

inductive ProbeOutcome where
  | none | done | abortLink | abortSwap | abortRequest
  deriving DecidableEq, Repr

/-- The result record (Table 2.3 (1)). -/
structure MarginResult where
  starter : Option Starter
  lane : Option Lane
  kind : Option ProbeKind
  direction : Option ProbeDirection
  stepLimit : Option Nat
  errorLimit : Option Nat
  steps : Nat
  errors : Nat
  outcome : ProbeOutcome
  deriving DecidableEq, Repr

/-- The default of Table 2.3 (1). -/
def MarginResult.default : MarginResult :=
  { starter := none, lane := none, kind := none, direction := none, stepLimit := none, errorLimit := none,
    steps := 0, errors := 0, outcome := .none }

/-- Steps reached and errors at stop of one admission probe (R31). -/
structure Figure where
  steps : Nat
  errors : Nat
  deriving DecidableEq, Repr

/-- The figures of one probed lane (R31). -/
structure LaneFigures where
  lane : Lane
  plus : Figure
  minus : Figure
  deriving DecidableEq, Repr

/-- An admission sequence (R31): the lanes after the one being probed, the PLUS figure of that lane once its PLUS probe
has completed, and the figures of the lanes done. -/
structure Admission where
  later : List Lane
  plus : Option Figure
  done : List LaneFigures
  deriving DecidableEq, Repr

structure MarginUnit where
  probe : Option Probe
  admission : Option Admission
  result : MarginResult
  deriving DecidableEq, Repr

/-- R34. -/
def MarginUnit.fullReset : MarginUnit := { probe := none, admission := none, result := .default }

/-! ### Frame Roster (chapter 3) -/

/-- The nine states of Table 3.3 (1). -/
inductive RosterState where
  | empty | detected | probing | identifying | pending | active | draining | quiesced | faulted
  deriving DecidableEq, Repr

/-- The last causes of Table 3.1 (1). -/
inductive Cause where
  | none | presence | link | margin | noident | mismatch | evicted | drainForced
  deriving DecidableEq, Repr

inductive Policy where
  | auto | manual
  deriving DecidableEq, Repr

/-- A frame identity record (3.1): class 0-15, grade 0-3, slot count 1-20. -/
structure Identity where
  serial : BitVec 64
  cls : Nat
  grade : Nat
  slots : Nat
  deriving DecidableEq, Repr

/-- A roster entry (Table 3.1 (1)), with its roster presence and its two timers as oscillator moments. -/
structure RosterEntry where
  state : RosterState
  identity : Option Identity
  epoch : BitVec 16
  admittedAt : Option Time
  lastCause : Cause
  policy : Policy
  swapPending : Bool
  presence : Bool
  identWait : Option Nat
  drainEnds : Option Nat
  deriving DecidableEq, Repr

/-- R60. -/
def RosterEntry.fullReset : RosterEntry :=
  { state := .empty, identity := none, epoch := 0, admittedAt := none, lastCause := .none, policy := .auto,
    swapPending := false, presence := false, identWait := none, drainEnds := none }

/-! ### Sideband Line Unit (chapter 4) -/

inductive LineMode where
  | function | direct
  deriving DecidableEq, Repr

inductive TrigDir where
  | input | output
  deriving DecidableEq, Repr

inductive TrigDrive where
  | drivenLow | drivenHigh | released
  deriving DecidableEq, Repr

/-- The lane outputs field of a hold record has one value (Table 4.6 (1)). -/
inductive LaneHold where
  | quiet
  deriving DecidableEq, Repr

/-- Mode and output latch of one line (R62). -/
structure LineSetting where
  mode : LineMode
  latch : Bool
  deriving DecidableEq, Repr

/-- A hold record (Table 4.6 (1)); `ready` is true for ON. -/
structure HoldRecord where
  ready : Bool
  trig : TrigDrive
  lanes : LaneHold
  deriving DecidableEq, Repr

/-- R74. -/
def HoldRecord.fullReset : HoldRecord := { ready := true, trig := .released, lanes := .quiet }

/-- The four lines of a link (Table 4.1 (1)); the pins are the levels driven from outside; `pulse` is the oscillator
moment at which the TRIG pulse in progress ends (R65). -/
structure LinkLines where
  present : LineSetting
  swapreq : LineSetting
  ready : LineSetting
  trig : LineSetting
  trigDir : TrigDir
  presentPin : Bool
  swapreqPin : Bool
  trigPin : Bool
  pulse : Option Nat
  hold : HoldRecord
  deriving DecidableEq, Repr

/-- FUNCTION mode with latch 0 (R74). -/
def LineSetting.fullReset : LineSetting := { mode := .function, latch := false }

/-- R74, with every input pin low. -/
def LinkLines.fullReset : LinkLines :=
  { present := .fullReset, swapreq := .fullReset, ready := .fullReset, trig := .fullReset, trigDir := .input,
    presentPin := false, swapreqPin := false, trigPin := false, pulse := none, hold := .fullReset }

/-- The panel lines TRIGIN and TRIGOUT (R67). -/
structure PanelLines where
  trigin : LineSetting
  trigout : LineSetting
  triginPin : Bool
  trigoutPulse : Option Nat
  deriving DecidableEq, Repr

/-- R74. -/
def PanelLines.fullReset : PanelLines :=
  { trigin := .fullReset, trigout := .fullReset, triginPin := false, trigoutPulse := none }

/-! ### Timebase Unit (chapters 5 and 6) -/

/-- The timebase source (R79). -/
inductive Source where
  | internal
  | link (n : Link)
  | none
  deriving DecidableEq, Repr

/-- Table 5.2 (1), but for the rack time. `holdoverSince` is the oscillator moment at which the holdover timer
started. -/
structure Timebase where
  trim : Int
  integ : Int
  permitUsed : Bool
  state : TimebaseState
  source : Source
  priority : List Link
  good : Nat
  bad : Nat
  missing : Nat
  holdoverSince : Option Nat
  k : Nat
  window : Nat
  stepThreshold : Nat
  holdoverLimit : Nat
  freeTrim : Int
  deriving DecidableEq, Repr

/-- R101, Table 5.2 (1). -/
def Timebase.fullReset : Timebase :=
  { trim := 0, integ := 0, permitUsed := false, state := .freerun, source := .internal,
    priority := [0, 1, 2, 3, 4, 5], good := 0, bad := 0, missing := 0, holdoverSince := none,
    k := 3, window := 100, stepThreshold := 10000, holdoverLimit := 600, freeTrim := 0 }

/-- An open exchange (R88): `t1` once taken, with the oscillator moment at which the reply limit ends; `stale` after a
step of rack time (R97). -/
structure Exchange where
  number : BitVec 16
  t1 : Option Time
  limit : Option Nat
  stale : Bool
  deriving DecidableEq, Repr

/-- A running exchange schedule (R87), in oscillator moments. -/
structure Schedule where
  lastDue : Option Nat
  nextDue : Nat
  deriving DecidableEq, Repr

/-- The last delay shift (Table 6.1 (1)). -/
structure DelayShift where
  moment : Time
  before : Nat
  after : Nat
  deriving DecidableEq, Repr

/-- The sync state of a link (Table 5.2 (2) and Table 6.1 (1)). -/
structure LinkSync where
  delay : Option Nat
  grade : Option Nat
  exchange : Option Exchange
  number : BitVec 16
  schedule : Option Schedule
  follower : FollowerState
  within : Nat
  beyond : Nat
  missing : Nat
  shift : Nat
  lastOffset : Option Int
  lastShift : Option DelayShift
  deriving DecidableEq, Repr

/-- R101, R116. -/
def LinkSync.fullReset : LinkSync :=
  { delay := none, grade := none, exchange := none, number := 0, schedule := none, follower := .untimed,
    within := 0, beyond := 0, missing := 0, shift := 0, lastOffset := none, lastShift := none }

/-! ### Trigger Unit (chapter 7) -/

inductive TrigState where
  | free | waiting | armed | done
  deriving DecidableEq, Repr

inductive TrigMode where
  | atTime | onCapture
  deriving DecidableEq, Repr

/-- The source of a capture, or the source a trigger entry waits on (Table 7.10 (1)). -/
inductive CaptureSource where
  | panel
  | link (n : Link)
  deriving DecidableEq, Repr

inductive TrigOutcome where
  | none | fired | late | skipped | cancelledRequest | cancelledSwap
  deriving DecidableEq, Repr

/-- A pending pulse (Table 7.1 (1)): the compare time, PANEL yes or no, and the set of links written at the send event.
`left` is the model's own field, which no request shows: the links whose frame has left ACTIVE since then (R123). -/
structure PendingPulse where
  compare : Time
  panel : Bool
  links : LinkSet
  left : LinkSet
  deriving DecidableEq, Repr

/-- A trigger entry (Table 7.1 (1)); `owner` none is NONE. -/
structure TrigEntry where
  state : TrigState
  owner : Option Requester
  mode : TrigMode
  compare : Time
  period : Nat
  repeats : Nat
  source : Option CaptureSource
  delay : Option Nat
  targets : TargetSet
  code : BitVec 4
  outcome : TrigOutcome
  fires : BitVec 16
  skips : BitVec 16
  missedTargets : BitVec 16
  missedCaptures : BitVec 16
  pulse : Option PendingPulse
  deriving DecidableEq, Repr

/-- The contents of a FREE entry (R117), without a pending pulse. -/
def TrigEntry.free : TrigEntry :=
  { state := .free, owner := none, mode := .atTime, compare := 0, period := 0, repeats := 1, source := none,
    delay := none, targets := 0, code := 0, outcome := .none, fires := 0, skips := 0, missedTargets := 0,
    missedCaptures := 0, pulse := none }

/-- What made a capture (Table 7.10 (1)). -/
inductive CaptureOrigin where
  | trigin
  | trigLine (n : Link)
  | triggerCell (n : Link)
  deriving DecidableEq, Repr

/-- A capture record (Table 7.10 (1)). -/
structure Capture where
  number : BitVec 16
  origin : CaptureOrigin
  source : CaptureSource
  time : Time
  uncompensated : Bool
  unlocked : Bool
  intended : Option Time
  code : Option (BitVec 4)
  deriving DecidableEq, Repr

/-! ### Stream Switch (chapters 8 and 9) -/

inductive RouteKind where
  | static | dynamic
  deriving DecidableEq, Repr

/-- The egress class of a route (0.6). -/
inductive RouteClass where
  | normal | expedite
  deriving DecidableEq, Repr

/-- A gate (R146): a span of rack time, start included, stop excluded. -/
structure Gate where
  start : Time
  stop : Time
  deriving DecidableEq, Repr

/-- A valid route entry (Table 8.1 (1)); an invalid one is absent from the table (R136). -/
structure Route where
  stream : StreamId
  source : Link
  egress : LinkSet
  kind : RouteKind
  cls : RouteClass
  gate : Option Gate
  used : Bool
  owner : Option Requester
  deriving DecidableEq, Repr

/-- What a ROUTE_SET carries (R138). -/
structure RouteSpec where
  stream : StreamId
  source : Link
  egress : LinkSet
  kind : RouteKind
  cls : RouteClass
  gate : Option Gate
  deriving DecidableEq, Repr

/-- A route write asked for by a requester. `modify` holds the ROUTE indices the access table let the requester modify
when the request arrived (R138); `orphaned` (R137): its request was ended by the link-level reset; `departed` (R139):
the departure effects of its requester's frame have been applied since it arrived. -/
structure WriteRequest where
  requester : Requester
  tag : Byte
  modify : BitVec 64
  orphaned : Bool
  departed : Bool
  deriving DecidableEq, Repr

/-- A waiting write (R137). -/
inductive WaitingWrite where
  | set (w : WriteRequest) (r : RouteSpec)
  | clear (w : WriteRequest) (i : RouteIx)
  | sweep
  deriving DecidableEq, Repr

/-- The write in progress, decided at its start (R139, R141, R148): a sweep holds the entries it has read. -/
inductive ActiveWrite where
  | replace (w : WriteRequest) (r : RouteSpec) (i : RouteIx)
  | create (w : WriteRequest) (r : RouteSpec) (i : RouteIx)
  | clear (w : WriteRequest) (i : RouteIx)
  | sweep (entries : BitVec 64)
  deriving DecidableEq, Repr

/-- A pool slot in use (Table 9.1 (1)); `width` is true for 32-bit samples. -/
structure Slot where
  stream : StreamId
  sequence : BitVec 16
  stamp : Time
  timed : Bool
  width : Bool
  count : Nat
  payload : List Byte
  refs : Nat
  deriving DecidableEq, Repr

/-- The two egress queues of a link, oldest first, and its EXPEDITE run (R155, R156). -/
structure Egress where
  expedite : List SlotIx
  normal : List SlotIx
  run : Nat
  deriving DecidableEq, Repr

/-- R167. -/
def Egress.fullReset : Egress := { expedite := [], normal := [], run := 0 }

/-- A hold-list entry (R160). -/
structure HoldEntry where
  stream : StreamId
  source : Link
  egress : Link
  expiry : Time
  deriving DecidableEq, Repr

/-! ### Request Unit and Rack Controller Port (chapter 10) -/

/-- The access spaces of Table 10.3 (1), and ALL. -/
inductive Space where
  | link | roster | route | trigger | capture | timebase | lines | counters | all
  deriving DecidableEq, Repr

/-- An access table entry that is not empty (R172). -/
structure AccessEntry where
  space : Space
  first : Nat
  last : Nat
  read : LinkSet
  modify : LinkSet
  deriving DecidableEq, Repr

/-- What the Request Unit keeps for each requester. -/
structure Client where
  busy : Bool
  cursor : Nat
  news : NoticeSet
  mask : NoticeSet
  deriving DecidableEq, Repr

/-- R180. -/
def Client.fullReset : Client := { busy := false, cursor := 0, news := 0, mask := BitVec.allOnes 7 }

/-- The notice kinds of Table 10.5 (1), in the order of their bits (Table 11.2 (1)). -/
inductive Notice where
  | link | margin | roster | time | trigger | capture | route
  deriving DecidableEq, Repr

/-- SPI framing (R170, R180): the port awaits the fall of chip select, or a read transaction is in progress that began
with the given status byte. A request transaction is one command, so no framing state of its own is seen (log 23). -/
inductive SpiFraming where
  | awaitingFall
  | reading (status : Byte)
  deriving DecidableEq, Repr

/-- The Rack Controller Port (R170): the response buffer, its read mark, the framing, the response held until the read
transaction in progress ends, and the model's observation of the bytes the last read transaction shifted out (log 8). -/
structure RcpPort where
  buffer : Option Response
  readMark : Bool
  framing : SpiFraming
  held : Option Response
  shiftedOut : List Byte
  deriving DecidableEq, Repr

/-- R180. -/
def RcpPort.fullReset : RcpPort :=
  { buffer := none, readMark := false, framing := .awaitingFall, held := none, shiftedOut := [] }

/-! ### The whole -/

/-- The state of the KL6 and its queue of waiting commands. INVENTORY.md names the rule and the reset value of each
field. -/
structure State where
  /-- The commands that are waiting, first in first out (the model's own). -/
  pending : List Instr
  /-- Elapsed oscillator time in ns; every oscillator timer is kept as the moment at which it ends (log 2). -/
  osc : Nat
  /-- The oscillator time one idle step lets pass at most (the model's own, log 2). -/
  idleNs : Nat
  /-- The RESET input is asserted. -/
  resetAsserted : Bool
  /-- Rack time, whole nanoseconds (R76). -/
  rack : Time
  /-- The 32-bit fraction below the nanosecond (R76). -/
  frac : BitVec 32
  /-- What is left below the fraction, in units of 10^-9 of its last bit (log 7). -/
  fracRem : Nat
  tb : Timebase
  syncs : Vector LinkSync 6
  ports : Vector LinkPort 6
  counters : Vector LinkCounters 6
  initDrop : Counter
  captureOverflow : Counter
  margins : Vector MarginUnit 6
  roster : Vector RosterEntry 6
  admitMinSteps : Nat
  drainLimitMs : Nat
  lines : Vector LinkLines 6
  panel : PanelLines
  trigs : Vector TrigEntry 16
  captures : List Capture
  captureCount : BitVec 16
  lead : Nat
  routes : Vector (Option Route) 64
  writing : Option ActiveWrite
  waiting : List WaitingWrite
  ready : Bool
  agingEnds : Option Nat
  agingInterval : Nat
  highMark : Nat
  lowMark : Nat
  holdTime : Nat
  pool : Vector (Option Slot) 96
  egress : Vector Egress 6
  holds : List HoldEntry
  access : Vector (Option AccessEntry) 8
  clients : Vector Client 7
  outstanding : Vector Bool 6
  rcp : RcpPort
  deriving DecidableEq, Repr

/-- Access table entry 0 after reset: space ALL, read and modify for F0 to F5 (R180). R180 gives its first and last
index no value, and ACCESS_READ returns them; that both are 0 is a DESIGN CHOICE (log 25). -/
def AccessEntry.everything : AccessEntry :=
  { space := .all, first := 0, last := 0, read := BitVec.allOnes 6, modify := BitVec.allOnes 6 }

/-- The access table after full and soft reset (R179, R180). -/
def accessReset : Vector (Option AccessEntry) 8 := (Vector.replicate 8 none).set 0 (some .everything)

/-- The state right after full reset: RESET has just been released with every input pin low, rack time is 0, and the
initialisation of the Stream Switch has begun (R20, R34, R60, R74, R101, R116, R135, R150, R151, R167, R180; log 9). -/
def State.reset : State :=
  { pending := [], osc := 0, idleNs := 1, resetAsserted := false
    rack := 0, frac := 0, fracRem := 0
    tb := .fullReset, syncs := Vector.replicate 6 .fullReset
    ports := Vector.replicate 6 .fullReset
    counters := Vector.replicate 6 (Vector.replicate 22 0), initDrop := 0, captureOverflow := 0
    margins := Vector.replicate 6 .fullReset
    roster := Vector.replicate 6 .fullReset, admitMinSteps := 6, drainLimitMs := 50
    lines := Vector.replicate 6 .fullReset, panel := .fullReset
    trigs := Vector.replicate 16 .free, captures := [], captureCount := 0, lead := 20000
    routes := Vector.replicate 64 none, writing := none, waiting := [], ready := false
    agingEnds := none, agingInterval := 60, highMark := 18, lowMark := 6, holdTime := 500
    pool := Vector.replicate 96 none, egress := Vector.replicate 6 .fullReset, holds := []
    access := accessReset, clients := Vector.replicate 7 .fullReset
    outstanding := Vector.replicate 6 false, rcp := .fullReset }

end Sys2Proof.Machine
end

