-- ==== Sys2Proof/Machine/Limits.lean ====
section
/-! DEFINITION. The fixed times and bounds of the manual, in nanoseconds of oscillator time, ppb and counts. -/

namespace Sys2Proof.Machine

/-- The training limit of 100 ms (R3). -/
def trainingLimitNs : Nat := 100000000

/-- The recovery limit of 10 ms (R9). -/
def recoveryLimitNs : Nat := 10000000

/-- The training failure count at which retry is barred (R2, R4). -/
def failBar : Nat := 8

/-- The errored cells in succession that start a recovery (R8). -/
def errorsToRecovery : Nat := 4

/-- A probe dwell of 1 ms (R23). -/
def dwellNs : Nat := 1000000

/-- The step limit of an admission probe (R31). -/
def admissionSteps : Nat := 31

/-- The identity wait of 2 s (R39). -/
def identityWaitNs : Nat := 2000000000

/-- The reply limit of 10 ms (R88). -/
def replyLimitNs : Nat := 10000000

/-- The plausible maximum round trip, RTT_MAX (R90). -/
def rttMax : Nat := 10000

/-- An offset of this magnitude or more is never used: 2^40 ns (R90). -/
def thetaBound : Nat := 1099511627776

/-- The bound of T and I, 100,000 ppb (R96). -/
def trimBound : Int := 100000

/-- The difference of delay that counts toward a cable change, 50 ns (R107). -/
def shiftNs : Nat := 50

/-- The pulse width of 1 us (R65). -/
def pulseNs : Nat := 1000

/-- Nanoseconds in a second, a millisecond and a microsecond. -/
def secondNs : Nat := 1000000000
def millisecondNs : Nat := 1000000
def microsecondNs : Nat := 1000

/-- The period of the exchange schedule, 1/2^k s (R87). -/
def exchangePeriod (k : Nat) : Nat := secondNs / 2 ^ k

/-- The capacity of the capture queue (R132), an egress queue (R155) and the hold list (R160). -/
def captureCapacity : Nat := 32
def queueCapacity : Nat := 24
def holdCapacity : Nat := 16

/-- The EXPEDITE run at which a NORMAL block is let through (R156). -/
def expediteRunMax : Nat := 8

/-- LEAD at full and soft reset, and its greatest value (R118). -/
def leadDefault : Nat := 20000
def leadMax : Nat := 100000

/-- The greatest period and the greatest capture delay (Table 7.1 (1)). -/
def periodMax : Nat := 1099511627776
def delayMax : Nat := 4294967296

end Sys2Proof.Machine
end

