-- ==== Sys2Proof/Machine/Ops.lean ====
section
/-! DEFINITION. The operations that every block shares: reading and updating the parts of the state, counters, the
transmit arbiter (R12, R13), and notices (R175, R176). -/

namespace Sys2Proof.Machine

/-! ### The links and requesters -/

/-- The six links in link-number order. -/
def allLinks : List Link := [0, 1, 2, 3, 4, 5]

/-- The seven requesters, in the order RCP, F0 to F5. -/
def allRequesters : List Requester :=
  [.rcp, .frame 0, .frame 1, .frame 2, .frame 3, .frame 4, .frame 5]

/-- Where a requester's record stands: the RCP first, then F0 to F5. -/
def clientIx : Requester → Fin 7
  | .rcp => 0
  | .frame n => n.succ

/-- The links of a set in link-number order. -/
def linksOf (set : LinkSet) : List Link := allLinks.filter fun n => set.getLsbD n

/-- The lanes of a set in lane-number order. -/
def lanesOf (set : LaneSet) : List Lane := ([0, 1, 2, 3] : List Lane).filter fun l => set.getLsbD l

/-- The set of a list of lanes. -/
def laneSetOf (ls : List Lane) : LaneSet := ls.foldl (fun a l => a ||| (1#4 <<< l.val)) 0#4

/-- The set with one link. -/
def linkBit (n : Link) : LinkSet := 1#6 <<< n.val

/-! ### Reading the parts of the state -/

def State.port (s : State) (n : Link) : LinkPort := s.ports[n]
def State.entry (s : State) (n : Link) : RosterEntry := s.roster[n]
def State.margin (s : State) (n : Link) : MarginUnit := s.margins[n]
def State.line (s : State) (n : Link) : LinkLines := s.lines[n]
def State.sync (s : State) (n : Link) : LinkSync := s.syncs[n]
def State.queues (s : State) (n : Link) : Egress := s.egress[n]
def State.trig (s : State) (i : TrigIx) : TrigEntry := s.trigs[i]
def State.route (s : State) (i : RouteIx) : Option Route := s.routes[i]
def State.slot (s : State) (i : SlotIx) : Option Slot := s.pool[i]
def State.client (s : State) (rq : Requester) : Client := s.clients[clientIx rq]

/-! ### Updating one part -/

def State.modPort (s : State) (n : Link) (f : LinkPort → LinkPort) : State :=
  { s with ports := s.ports.set n (f s.ports[n]) }

def State.modEntry (s : State) (n : Link) (f : RosterEntry → RosterEntry) : State :=
  { s with roster := s.roster.set n (f s.roster[n]) }

def State.modMargin (s : State) (n : Link) (f : MarginUnit → MarginUnit) : State :=
  { s with margins := s.margins.set n (f s.margins[n]) }

def State.modLine (s : State) (n : Link) (f : LinkLines → LinkLines) : State :=
  { s with lines := s.lines.set n (f s.lines[n]) }

def State.modSync (s : State) (n : Link) (f : LinkSync → LinkSync) : State :=
  { s with syncs := s.syncs.set n (f s.syncs[n]) }

def State.modQueues (s : State) (n : Link) (f : Egress → Egress) : State :=
  { s with egress := s.egress.set n (f s.egress[n]) }

def State.modTrig (s : State) (i : TrigIx) (f : TrigEntry → TrigEntry) : State :=
  { s with trigs := s.trigs.set i (f s.trigs[i]) }

def State.setRoute (s : State) (i : RouteIx) (r : Option Route) : State :=
  { s with routes := s.routes.set i r }

def State.setSlot (s : State) (i : SlotIx) (sl : Option Slot) : State :=
  { s with pool := s.pool.set i sl }

def State.modClient (s : State) (rq : Requester) (f : Client → Client) : State :=
  { s with clients := s.clients.set (clientIx rq) (f s.clients[clientIx rq]) }

def State.setOutstanding (s : State) (n : Link) (b : Bool) : State :=
  { s with outstanding := s.outstanding.set n b }

def State.modTb (s : State) (f : Timebase → Timebase) : State := { s with tb := f s.tb }

/-! ### Counters (R19, R166) -/

/-- Adds to a count that stays at its greatest value once it reaches it (R19, 7.1). -/
def satAdd {w : Nat} (c : BitVec w) (k : Nat) : BitVec w :=
  if c.toNat + k < 2 ^ w then c + BitVec.ofNat w k else BitVec.allOnes w

/-- The place of a counter in its set. -/
def LinkCounter.ix : LinkCounter → Fin 22
  | .cellsIn => 0 | .cellsOut => 1 | .cellErrors => 2 | .recoveries => 3 | .laneDrops => 4 | .trainFails => 5
  | .blocksIn => 6 | .blocksOut => 7 | .dropNoroute => 8 | .dropSource => 9 | .dropFilter => 10
  | .dropUntimed => 11 | .dropGate => 12 | .dropPool => 13 | .dropQueue => 14 | .dropDrain => 15
  | .dropNotactive => 16 | .flushed => 17 | .holdsSent => 18 | .holdsRefused => 19 | .syncDiscarded => 20
  | .trigMissed => 21

/-- The value of a counter of link `n`. -/
def State.counter (s : State) (n : Link) (c : LinkCounter) : Counter := (s.counters[n])[c.ix]

/-- Counts `k` events on a counter of link `n`. -/
def State.countBy (s : State) (n : Link) (c : LinkCounter) (k : Nat) : State :=
  { s with counters := s.counters.set n ((s.counters[n]).set c.ix (satAdd ((s.counters[n])[c.ix]) k)) }

/-- Counts one event on a counter of link `n`. -/
def State.count (s : State) (n : Link) (c : LinkCounter) : State := s.countBy n c 1

/-! ### The transmit arbiter (R12, R13) -/

/-- Whether the arbiter takes an offered cell: in UP every cell, in RECOVERY every cell but those of the SYNC category,
in other states none (R12). -/
def arbiterTakes (st : LinkState) (c : TxCell) : Bool :=
  match st with
  | .up => true
  | .recovery => match c with
    | .sync _ => false
    | .trig _ => true
    | .hold _ => true
    | .ctrl _ => true
  | .off => false
  | .down => false
  | .training => false

/-- Puts a cell last in its category. -/
def enqueueCell (c : TxCell) (p : LinkPort) : LinkPort :=
  match c with
  | .sync c => { p with waitSync := p.waitSync ++ [c] }
  | .trig c => { p with waitTrig := p.waitTrig ++ [c] }
  | .hold c => { p with waitHold := p.waitHold ++ [c] }
  | .ctrl c => { p with waitCtrl := p.waitCtrl ++ [c] }

/-- The TRIGGER cell to take first: lower index first, and for one index in the order offered (R12). -/
def firstTrig : List TrigCell → Option TrigCell
  | [] => none
  | c :: rest =>
    match firstTrig rest with
    | none => some c
    | some d => if d.index < c.index then some d else some c

/-- Takes the first waiting cell of the first non-empty category; a returned TRIGGER cell stands before every other of
its category (R12). -/
def takeWaiting (p : LinkPort) : Option (TxCell × LinkPort) :=
  match p.waitSync with
  | c :: rest => some (.sync c, { p with waitSync := rest })
  | [] =>
    match p.trigHead with
    | some c => some (.trig c, { p with trigHead := none })
    | none =>
      match firstTrig p.waitTrig with
      | some c => some (.trig c, { p with waitTrig := p.waitTrig.erase c })
      | none =>
        match p.waitHold with
        | c :: rest => some (.hold c, { p with waitHold := rest })
        | [] =>
          match p.waitCtrl with
          | c :: rest => some (.ctrl c, { p with waitCtrl := rest })
          | [] => none

/-- When the transmitter is free and the link is UP, the arbiter hands it the next waiting cell (R12). -/
def startCell (p : LinkPort) : LinkPort :=
  if p.state = .up ∧ p.tx = none then
    match takeWaiting p with
    | some (c, p) => { p with tx := some (.cell c) }
    | none => p
  else p

/-- A cell offered to a port: taken or refused by the link state, and sent at once if the transmitter is free (R12). -/
def offerToPort (c : TxCell) (p : LinkPort) : LinkPort :=
  if arbiterTakes p.state c then startCell (enqueueCell c p) else p

/-- Offers a cell to the transmit arbiter of link `n`. A refused cell is discarded; what the refusal means to the
offering block is stated where the cell is offered. -/
def offerCell (n : Link) (c : TxCell) (s : State) : State := s.modPort n (offerToPort c)

/-! ### Notices (R175, R176) -/

/-- The bit of a notice kind (Table 11.2 (1)). -/
def Notice.bit : Notice → NoticeSet
  | .link => 1 | .margin => 2 | .roster => 4 | .time => 8 | .trigger => 16 | .capture => 32 | .route => 64

/-- Offers a NOTICE cell to Fn with its pending set as it stands; the flag is set if the arbiter takes it (R176). -/
def offerNotice (n : Link) (s : State) : State :=
  let c : TxCell := .ctrl (.notice (s.client (.frame n)).news)
  if arbiterTakes (s.port n).state c then (offerCell n c s).setOutstanding n true else s

/-- Whether a pending kind of `kinds` is admitted by the requester's mask. -/
def admitted (s : State) (rq : Requester) (kinds : NoticeSet) : Bool :=
  decide ((s.client rq).news &&& (s.client rq).mask &&& kinds ≠ 0)

/-- Tells Fn of pending kinds: when its mask admits one of them and its notice-outstanding flag is clear, a NOTICE cell
is offered (R176). The RCP is told by ATTN, a function of the state (R177). -/
def tell (rq : Requester) (kinds : NoticeSet) (s : State) : State :=
  match rq with
  | .rcp => s
  | .frame n => if admitted s rq kinds && !s.outstanding[n] then offerNotice n s else s

/-- Sets a notice kind pending for a requester (R175), and tells it (R176). -/
def notify (k : Notice) (s : State) (rq : Requester) : State :=
  tell rq k.bit (s.modClient rq fun c => { c with news := c.news ||| k.bit })

/-- Sets a notice kind pending for all seven requesters. -/
def notifyAll (k : Notice) (s : State) : State := allRequesters.foldl (notify k) s

/-- Sets a notice kind pending for an owner, unless the owner is NONE. -/
def notifyOwner (k : Notice) (owner : Option Requester) (s : State) : State :=
  match owner with
  | some rq => notify k s rq
  | none => s

end Sys2Proof.Machine
end

