-- ==== Sys2Proof/Machine/Clock.lean ====
section
/-! DEFINITION. The passing of time: the oscillator and the rack time scaled by the rate trim (R76), and the moments
that a timed command stands for (log 2). -/

namespace Sys2Proof.Machine

/-- The 64-bit time of an exact result; outside 0 to 2^64 - 1 it is a free value (log 3). -/
def fitTime (x : Int) : Time :=
  if 0 ≤ x ∧ x < 2 ^ 64 then BitVec.ofNat 64 x.toNat else Config.timeOutside x

/-- The rack nanoseconds gained in 10^9 ns of oscillator time at the trim T in force: 10^9 + T (R76). -/
def rackRate (s : State) : Nat := (1000000000 + s.tb.trim).toNat

/-- What the fraction and the remainder below it amount to, in units of 2^-32 * 10^-9 ns. -/
def rackPhase (s : State) : Nat := s.frac.toNat * 1000000000 + s.fracRem

/-- One nanosecond of rack time in the same units. -/
def rackUnit : Nat := 4294967296 * 1000000000

/-- `dt` ns of oscillator time pass. The rack time gains `dt * (1 + T * 10^-9)`, exactly, the fraction carried from one
rate to the next (R76). While RESET is asserted the rack time stands (R101). -/
def advance (dt : Nat) (s : State) : State :=
  if s.resetAsserted then { s with osc := s.osc + dt }
  else
    let total := rackPhase s + dt * rackRate s * 4294967296
    { s with
      osc := s.osc + dt
      rack := fitTime (s.rack.toNat + total / rackUnit)
      frac := BitVec.ofNat 32 (total / 1000000000)
      fracRem := total % 1000000000 }

/-- The least oscillator time after which the rack time has reached `target`; none if it will not. Oscillator time moves
in whole ns (DESIGN CHOICE, log 2), so with a rate above nominal the rack time may stand 1 ns past `target` by then, and
with LEAD 0 an instance whose send event comes so is judged late (R121, R125). -/
def oscUntil (target : Nat) (s : State) : Option Nat :=
  if target ≤ s.rack.toNat then some 0
  else if s.resetAsserted ∨ rackRate s = 0 then none
  else
    let need := (target - s.rack.toNat) * rackUnit - rackPhase s
    let per := rackRate s * 4294967296
    some ((need + per - 1) / per)

/-- Time passes up to an oscillator moment, if it lies ahead: the moment a timed command stands for (log 2). -/
def advanceTo (moment : Nat) (s : State) : State := advance (moment - s.osc) s

/-- Time passes until the rack time has reached `target`, if it has not (log 2). -/
def advanceToRack (target : Nat) (s : State) : State := advance ((oscUntil target s).getD 0) s

end Sys2Proof.Machine
end

