-- ==== Sys2Proof/Machine/Flags.lean ====
section
/-! DEFINITION. Conditions and levels that the manual defines as functions of the state: service, eligibility, roles,
grades, the timed condition, pin levels, lane outputs, and permissions. -/

namespace Sys2Proof.Machine

/-! ### Link ports -/

/-- A port in UP or RECOVERY is in service (chapter 1). -/
def inService (st : LinkState) : Bool :=
  match st with
  | .up => true
  | .recovery => true
  | .off => false
  | .down => false
  | .training => false

/-- Retry is barred while the training failure count is 8 (R2). -/
def retryBarred (p : LinkPort) : Bool := decide (failBar ≤ p.failCount)

/-- What a port sends on a lane (Table 1.1 (1)). -/
inductive LaneSignal where
  | quiet | announcement | trainingPattern | realignment | idleFill | cells
  deriving DecidableEq, Repr

/-- What the transmitter of a port in UP sends on its lanes: idle fill while no cell is in transmission (R12). -/
def transmits (p : LinkPort) : LaneSignal := if p.tx.isSome then .cells else .idleFill

/-- The transmit side of lane `l` of link `n` (Table 1.1 (1), R1, R2, R3, R6, R10, R12, R20). -/
def laneSignal (s : State) (n : Link) (l : Lane) : LaneSignal :=
  let p := s.port n
  if s.resetAsserted then .quiet
  else
    match p.state with
    | .off => .quiet
    | .down => if (s.line n).presentPin ∧ ¬ retryBarred p then .announcement else .quiet
    | .training => .trainingPattern
    | .up => if p.lanes.getLsbD l then transmits p else .quiet
    | .recovery => if p.lanes.getLsbD l then .realignment else .quiet

/-- The setting of a lane's receiver: the steps from nominal, with the side, while a probe is on it (R22, R34). -/
def receiverSetting (s : State) (n : Link) (l : Lane) : Option (ProbeKind × ProbeDirection × Nat) :=
  match (s.margin n).probe with
  | some p => if p.lane = l then some (p.kind, p.direction, p.step) else none
  | none => none

/-! ### Sync roles and grades (R78, R87, R103) -/

/-- The roster states in which a link may be eligible for sync exchanges (R87). -/
def syncState (st : RosterState) : Bool :=
  match st with
  | .probing => true
  | .identifying => true
  | .pending => true
  | .active => true
  | .draining => true
  | .empty => false
  | .detected => false
  | .quiesced => false
  | .faulted => false

/-- Link `n` is eligible for sync exchanges (R87). -/
def eligible (s : State) (n : Link) : Bool := inService (s.port n).state && syncState (s.entry n).state

/-- The sync roles of R103. -/
inductive SyncRole where
  | source | follower | notEligible
  deriving DecidableEq, Repr

/-- The role of link `n` (R103). -/
def syncRole (s : State) (n : Link) : SyncRole :=
  if s.tb.source = .link n then .source
  else if eligible s n then .follower
  else .notEligible

/-- The reported grade of link `n` (R78). -/
def reportedGrade (s : State) (n : Link) : Nat :=
  match (s.sync n).grade with
  | some g => g
  | none =>
    match (s.entry n).identity with
    | some i => i.grade
    | none => 0

/-- Link `n` is a candidate for the timebase source (R78). -/
def candidate (s : State) (n : Link) : Bool :=
  decide ((s.entry n).state = .active) && decide (1 ≤ reportedGrade s n)

/-- The best candidate: the highest reported grade, and among equals the one earlier in the priority list (R79). -/
def bestCandidate (s : State) : Option Link :=
  s.tb.priority.foldl
    (fun best n =>
      if candidate s n then
        match best with
        | none => some n
        | some m => if reportedGrade s m < reportedGrade s n then some n else some m
      else best)
    none

/-- Link `n` is in the timed condition (R112). -/
def timedCondition (s : State) (n : Link) : Bool :=
  decide ((s.sync n).follower = .timed) || (decide (s.tb.source = .link n) && decide (s.tb.state = .locked))

/-! ### Pin levels (chapter 4) -/

/-- READY and TRIG of link `n` are held while its entry is QUIESCED (R73). -/
def held (s : State) (n : Link) : Bool := decide ((s.entry n).state = .quiesced)

/-- The level of the READY pin (R64, R73). -/
def readyLevel (s : State) (n : Link) : Bool :=
  if held s n then (s.line n).hold.ready
  else
    match (s.line n).ready.mode with
    | .function => decide ((s.entry n).state = .empty)
    | .direct => (s.line n).ready.latch

/-- What the KL6 drives on the TRIG pin; none when it does not drive it (R62, R65, R73). -/
def trigDriven (s : State) (n : Link) : Option Bool :=
  if held s n then
    match (s.line n).hold.trig with
    | .drivenLow => some false
    | .drivenHigh => some true
    | .released => none
  else
    match (s.line n).trigDir with
    | .input => none
    | .output =>
      match (s.line n).trig.mode with
      | .function => some (s.line n).pulse.isSome
      | .direct => some (s.line n).trig.latch

/-- The level of the TRIG pin: what the KL6 drives, or else what the outside drives. -/
def trigLevel (s : State) (n : Link) : Bool := (trigDriven s n).getD (s.line n).trigPin

/-- The level of TRIGOUT (R67). -/
def trigoutLevel (s : State) : Bool :=
  match s.panel.trigout.mode with
  | .function => s.panel.trigoutPulse.isSome
  | .direct => s.panel.trigout.latch

/-- ATTN is driven low while a kind is pending for the RCP that the RCP's mask admits (R67, R177). -/
def attnLow (s : State) : Bool := decide ((s.client .rcp).news &&& (s.client .rcp).mask ≠ 0)

/-- The level of the ATTN pin. -/
def attnLevel (s : State) : Bool := !attnLow s

/-! ### Permissions (R172, R173) -/

/-- The greatest index of a space (Table 10.3 (1)); ALL has no indices of its own. -/
def spaceMax : Space → Nat
  | .link => 5 | .roster => 5 | .route => 63 | .trigger => 15 | .capture => 0 | .timebase => 0
  | .lines => 6 | .counters => 6 | .all => 0

/-- An access table entry covers an index of a space (R172). -/
def covers (e : AccessEntry) (sp : Space) (i : Nat) : Bool :=
  decide (e.space = .all) || (decide (e.space = sp) && decide (e.first ≤ i ∧ i ≤ e.last))

/-- Fn is in the modify set of an entry covering the index (R173). -/
def tableModifies (s : State) (n : Link) (sp : Space) (i : Nat) : Bool :=
  s.access.toList.any fun e => match e with
    | some e => covers e sp i && e.modify.getLsbD n
    | none => false

/-- Fn is in the read set of an entry covering the index (R173). -/
def tableReads (s : State) (n : Link) (sp : Space) (i : Nat) : Bool :=
  s.access.toList.any fun e => match e with
    | some e => covers e sp i && e.read.getLsbD n
    | none => false

/-- Modify permission by the access table; the RCP has it on every index (R173). -/
def mayModify (s : State) (rq : Requester) (sp : Space) (i : Nat) : Bool :=
  match rq with
  | .rcp => true
  | .frame n => tableModifies s n sp i

/-- Read permission by the access table; modify includes read (R173). -/
def mayRead (s : State) (rq : Requester) (sp : Space) (i : Nat) : Bool :=
  match rq with
  | .rcp => true
  | .frame n => tableReads s n sp i || tableModifies s n sp i

/-- The owner of a route entry. -/
def routeOwner (s : State) (i : RouteIx) : Option Requester := (s.route i).bind (·.owner)

/-- Read permission on ROUTE `i`: by the table, or as owner (R143, R173). -/
def mayReadRoute (s : State) (rq : Requester) (i : RouteIx) : Bool :=
  mayRead s rq .route i || decide (routeOwner s i = some rq)

/-- Modify permission on TRIGGER `i`: by the table, or as owner (R173). -/
def mayModifyTrig (s : State) (rq : Requester) (i : TrigIx) : Bool :=
  mayModify s rq .trigger i || decide ((s.trig i).owner = some rq)

/-- Read permission on TRIGGER `i` (R173). -/
def mayReadTrig (s : State) (rq : Requester) (i : TrigIx) : Bool :=
  mayRead s rq .trigger i || decide ((s.trig i).owner = some rq)

/-! ### Requests by roster state (R53) -/

/-- The read-only kinds open to a DRAINING frame, COUNTER_READ without the clear option among them (Table 3.9 (1)). -/
def drainingKinds : List Byte :=
  [kindLinkRead, kindMarginResult, kindRosterRead, kindLineRead, kindTimeRead, kindTrigRead, kindCapturePeek,
   kindRouteRead, kindRouteFirst, kindRouteNext, kindCounterRead, kindHubStatus, kindNoticeRead]

/-- The kinds open to a frame in IDENTIFYING or PENDING (Table 3.9 (1)). -/
def identifyingKinds : List Byte := [kindRosterRead, kindNoticeRead, kindTimeRead]

/-- A known kind from Fn is admitted by the state of roster entry n (R53); `clear` marks a COUNTER_READ with the clear
option. -/
def rosterAdmits (st : RosterState) (kind : Byte) (clear : Bool) : Bool :=
  match st with
  | .active => true
  | .draining => drainingKinds.contains kind && !clear
  | .identifying => identifyingKinds.contains kind
  | .pending => identifyingKinds.contains kind
  | .empty => false
  | .detected => false
  | .probing => false
  | .quiesced => false
  | .faulted => false

end Sys2Proof.Machine
end

