-- ==== Sys2Proof/Machine/MarginOps.lean ====
section
/-! DEFINITION. The Lane Margin Unit's shared operations: starting a probe, ending it, and the admission sequence
(chapter 2). What the roster makes of an admission stands with the roster's operations. -/

namespace Sys2Proof.Machine

/-- A probe as it starts: step 1, nothing within margin yet, and the first dwell begun (R22). -/
def newProbe (starter : Starter) (lane : Lane) (kind : ProbeKind) (direction : ProbeDirection)
    (stepLimit errorLimit osc : Nat) : Probe :=
  { starter := starter, lane := lane, kind := kind, direction := direction, stepLimit := stepLimit,
    errorLimit := errorLimit, step := 1, errors := 0, lastWithin := 0, dwellEnds := osc + dwellNs }

/-- An admission probe of a lane: TIMING, step limit 31, error limit 0 (R31). -/
def admissionProbe (lane : Lane) (direction : ProbeDirection) (osc : Nat) : Probe :=
  newProbe .admission lane .timing direction admissionSteps 0 osc

/-- The admission sequence starts on the active lane set as it stands (R31). -/
def startAdmission (n : Link) (s : State) : State :=
  match lanesOf (s.port n).lanes with
  | lane :: later =>
    s.modMargin n fun m => { m with
      probe := some (admissionProbe lane .plus s.osc)
      admission := some { later := later, plus := none, done := [] } }
  | [] => s

/-- The result record of a requested probe that has ended (R25). -/
def probeResult (p : Probe) (steps : Nat) (outcome : ProbeOutcome) : MarginResult :=
  { starter := some p.starter, lane := some p.lane, kind := some p.kind, direction := some p.direction,
    stepLimit := some p.stepLimit, errorLimit := some p.errorLimit, steps := steps, errors := p.errors,
    outcome := outcome }

/-- The probe `p` of link `n`, started by a request, ends: the lane is nominal, the result record is overwritten and the
starter alone is told (R25). -/
def endRequested (n : Link) (rq : Requester) (p : Probe) (steps : Nat) (outcome : ProbeOutcome) (s : State) : State :=
  notify .margin (s.modMargin n fun m => { m with probe := none, result := probeResult p steps outcome }) rq

/-- A probe in progress on link `n` is aborted (R25, R26, R27, R29); an aborted admission probe ends its sequence, and
its figures are discarded (R33). -/
def abortProbe (n : Link) (outcome : ProbeOutcome) (s : State) : State :=
  match (s.margin n).probe with
  | some p =>
    match p.starter with
    | .request rq => endRequested n rq p p.lastWithin outcome s
    | .admission => s.modMargin n fun m => { m with probe := none, admission := none }
  | none => s

/-- The roster states in which a probe may run (R27). -/
def probeMayRun (starter : Starter) (st : RosterState) : Bool :=
  match starter with
  | .request _ => decide (st = .pending) || decide (st = .active)
  | .admission => decide (st = .probing)

/-- When entry `n` has passed to a state in which its probe may not run, the probe is aborted with ABORT_SWAP (R27). -/
def probeFollowsRoster (n : Link) (s : State) : State :=
  match (s.margin n).probe with
  | some p => if probeMayRun p.starter (s.entry n).state then s else abortProbe n .abortSwap s
  | none => s

/-! ### The pass test (R32) -/

/-- The smaller of a lane's two steps-reached figures. -/
def laneMargin (f : LaneFigures) : Nat := min f.plus.steps f.minus.steps

/-- The worst lane: the smallest of the smaller figures, the lowest-numbered among equals (R32). -/
def worstLane : List LaneFigures → Option LaneFigures
  | [] => none
  | f :: rest =>
    match worstLane rest with
    | none => some f
    | some g => if laneMargin g < laneMargin f then some g else some f

/-- The result record of an admission: the worst lane, with the direction that gave the smaller figure, PLUS on a tie
(R32). -/
def admissionResult (f : LaneFigures) : MarginResult :=
  let plus := decide (f.plus.steps ≤ f.minus.steps)
  let g := if plus then f.plus else f.minus
  { starter := some .admission, lane := some f.lane, kind := some .timing,
    direction := some (if plus then .plus else .minus), stepLimit := some admissionSteps, errorLimit := some 0,
    steps := g.steps, errors := g.errors, outcome := .done }

/-- The lanes that fail against ADMIT_MIN_STEPS (R32). -/
def failingLanes (minSteps : Nat) (fs : List LaneFigures) : LaneSet :=
  laneSetOf ((fs.filter fun f => decide (laneMargin f < minSteps)).map (·.lane))

/-- At least one lane passes (R32). -/
def somePass (minSteps : Nat) (fs : List LaneFigures) : Bool := fs.any fun f => decide (minSteps ≤ laneMargin f)

end Sys2Proof.Machine
end

