-- ==== Sys2Proof/Machine/LineOps.lean ====
section
/-! DEFINITION. Pulses on TRIG lines and TRIGOUT (R65, R67). -/

namespace Sys2Proof.Machine

/-- A pulse is called for on the TRIG line of link `n`: driven, or extended if one is high, only in FUNCTION mode with
direction OUTPUT and the entry not QUIESCED (R65). -/
def callTrigPulse (s : State) (n : Link) : State :=
  if (s.line n).trig.mode = .function ∧ (s.line n).trigDir = .output ∧ ¬ held s n then
    s.modLine n fun l => { l with pulse := some (s.osc + pulseNs) }
  else s

/-- A pulse is called for on TRIGOUT: driven or extended in FUNCTION mode only (R67). -/
def callPanelPulse (s : State) : State :=
  match s.panel.trigout.mode with
  | .function => { s with panel := { s.panel with trigoutPulse := some (s.osc + pulseNs) } }
  | .direct => s

/-- A pulse in progress on the TRIG line of link `n` ends at once (R65, R73). -/
def endTrigPulse (n : Link) (s : State) : State := s.modLine n fun l => { l with pulse := none }

end Sys2Proof.Machine
end

