-- ==== Sys2Proof/Machine/StreamOps.lean ====
section
/-! DEFINITION. The Stream Switch's shared operations: pool references, holds, egress service, fan-out and flush
(chapter 9). -/

namespace Sys2Proof.Machine

/-! ### Pool slots (R152) -/

/-- Releases one reference of a slot; a slot whose count falls to 0 is free (R152). -/
def releaseSlot (i : SlotIx) (s : State) : State :=
  match s.slot i with
  | some sl => s.setSlot i (if sl.refs ≤ 1 then none else some { sl with refs := sl.refs - 1 })
  | none => s

/-- The lowest-numbered free slot (R153). -/
def freeSlot (s : State) : Option SlotIx := (List.finRange 96).find? fun i => (s.slot i).isNone

/-! ### Holds (R161 to R164) -/

/-- Offers a RESUME for a removed hold-list entry to its source link, if that link is UP (R14, R140, R162). -/
def offerResume (s : State) (h : HoldEntry) : State :=
  if (s.port h.source).state = .up then offerCell h.source (.hold (.resume h.stream)) s else s

/-- Removes the hold-list entries that satisfy `p`, with a RESUME for each (R14, R140, R162). -/
def releaseHolds (p : HoldEntry → Bool) (s : State) : State :=
  (s.holds.filter p).foldl offerResume { s with holds := s.holds.filter fun h => !p h }

/-- The expiry of an entry added or renewed now: the rack time plus the hold time in force (R161, R163). -/
def holdExpiryAt (s : State) : Time := fitTime (s.rack.toNat + s.holdTime * microsecondNs)

/-- Offers a HOLD for a stream to its source link and counts it (R161, R163). -/
def offerHold (stream : StreamId) (source : Link) (s : State) : State :=
  (offerCell source (.hold (.hold stream (BitVec.ofNat 16 s.holdTime))) s).count source .holdsSent

/-- A hold may be added for a stream of source link `src`: the route table holds a valid entry for it with that source
link, and the link is UP or RECOVERY (R161). -/
def holdSupported (stream : StreamId) (src : Link) (s : State) : Bool :=
  s.routes.toList.any (fun r => match r with
    | some r => decide (r.stream = stream ∧ r.source = src)
    | none => false)
  && inService (s.port src).state

/-- The hold test after an append to the NORMAL queue of `e` (R161). -/
def holdTest (stream : StreamId) (src e : Link) (s : State) : State :=
  if (s.queues e).normal.length < s.highMark then s
  else if !holdSupported stream src s then s
  else if s.holds.any fun h => decide (h.stream = stream ∧ h.egress = e) then s
  else if s.holds.length < holdCapacity then
    offerHold stream src
      { s with holds := s.holds ++ [{ stream := stream, source := src, egress := e, expiry := holdExpiryAt s }] }
  else s.count src .holdsRefused

/-- The release test after a fall of the NORMAL depth of `e` by transmission (R162). -/
def releaseTest (e : Link) (s : State) : State :=
  if (s.queues e).normal.length ≤ s.lowMark then releaseHolds (fun h => decide (h.egress = e)) s else s

/-- A hold-list entry whose expiry the rack time has reached is renewed or removed by the NORMAL depth of its egress
link (R163). -/
def expireHold (h : HoldEntry) (s : State) : State :=
  if s.lowMark < (s.queues h.egress).normal.length then
    offerHold h.stream h.source
      { s with holds := s.holds.map fun g =>
          if g.stream = h.stream ∧ g.egress = h.egress then { g with expiry := holdExpiryAt s } else g }
  else { s with holds := s.holds.filter fun g => !decide (g.stream = h.stream ∧ g.egress = h.egress) }

/-! ### Egress service (R156, R157) -/

/-- The block the egress service rule takes, whether it is from the NORMAL queue, and the queues after it (R156). -/
def chooseBlock (q : Egress) : Option (SlotIx × Bool × Egress) :=
  match q.expedite, q.normal with
  | [], [] => none
  | [], b :: rest => some (b, true, { q with normal := rest, run := 0 })
  | a :: rest, [] => some (a, false, { q with expedite := rest, run := min (q.run + 1) expediteRunMax })
  | a :: restA, b :: restB =>
    if q.run < expediteRunMax then some (a, false, { q with expedite := restA, run := q.run + 1 })
    else some (b, true, { q with normal := restB, run := 0 })

/-- The transmitter of link `n` takes what is next: a waiting cell, or else a block of the egress queues (R12, R156,
R157). -/
def startNext (n : Link) (s : State) : State :=
  let s := s.modPort n startCell
  if (s.port n).state = .up ∧ (s.port n).tx = none then
    match chooseBlock (s.queues n) with
    | some (slot, fromNormal, q) =>
      let s := (s.modQueues n fun _ => q).modPort n fun p => { p with tx := some (.block slot) }
      if fromNormal then releaseTest n s else s
    | none => s
  else s

/-! ### Fan-out (R153, R154) -/

/-- Link `e` may take a block: its port is UP or RECOVERY and its entry ACTIVE (R154). -/
def egressEligible (s : State) (e : Link) : Bool :=
  inService (s.port e).state && decide ((s.entry e).state = .active)

/-- The queue of a class. -/
def classQueue (c : RouteClass) (q : Egress) : List SlotIx :=
  match c with
  | .expedite => q.expedite
  | .normal => q.normal

/-- Appends a reference as the newest of a queue. -/
def appendRef (c : RouteClass) (i : SlotIx) (q : Egress) : Egress :=
  match c with
  | .expedite => { q with expedite := q.expedite ++ [i] }
  | .normal => { q with normal := q.normal ++ [i] }

/-- Adds a reference to a slot (R152). -/
def addRef (i : SlotIx) (s : State) : State :=
  s.setSlot i ((s.slot i).map fun sl => { sl with refs := sl.refs + 1 })

/-- Fan-out examines one egress link (R154); a transmitter standing idle then takes the block (R12). -/
def fanOutTo (i : SlotIx) (r : Route) (s : State) (e : Link) : State :=
  if !egressEligible s e then
    s.count e (if (s.entry e).state = .draining then .dropDrain else .dropNotactive)
  else if queueCapacity ≤ (classQueue r.cls (s.queues e)).length then s.count e .dropQueue
  else
    let s := addRef i (s.modQueues e (appendRef r.cls i))
    let s := match r.cls with
      | .normal => holdTest r.stream r.source e s
      | .expedite => s
    startNext e s

/-- Fan-out of a block that has passed its lookup under route `r` (R153, R154): it takes the lowest-numbered free slot,
examines each egress link, and frees the slot if none took the block. -/
def fanOut (block : Slot) (r : Route) (s : State) : State :=
  match freeSlot s with
  | none => s.count r.source .dropPool
  | some i =>
    let s := (linksOf r.egress).foldl (fanOutTo i r) (s.setSlot i (some { block with refs := 0 }))
    match s.slot i with
    | some sl => if sl.refs = 0 then s.setSlot i none else s
    | none => s

/-! ### Flush (R158) -/

/-- Releases one reference and counts it FLUSHED on link `n`. -/
def flushRef (n : Link) (s : State) (i : SlotIx) : State := (releaseSlot i s).count n .flushed

/-- The block in transmission on a port. -/
def sendingBlock (p : LinkPort) : Option SlotIx :=
  match p.tx with
  | some (.block i) => some i
  | some (.cell _) => none
  | none => none

/-- Abandons a block in transmission on link `n`, counting FLUSHED (R9, R14, R157). -/
def abandonBlock (n : Link) (s : State) : State :=
  match sendingBlock (s.port n) with
  | some i => flushRef n (s.modPort n fun p => { p with tx := none }) i
  | none => s

/-- A flush of link `n`: every reference in its queues and the block in transmission (R158). -/
def flushLink (n : Link) (s : State) : State :=
  let q := s.queues n
  let s := (q.expedite ++ q.normal).foldl (flushRef n) s
  abandonBlock n (s.modQueues n fun q => { q with expedite := [], normal := [] })

end Sys2Proof.Machine
end

