-- ==== Sys2Proof/Machine/TrigOps.lean ====
section
/-! DEFINITION. The Trigger Unit's shared operations: send and panel events, what follows a send, captures and
cross-triggers, steps of rack time, and departures (chapter 7). -/

namespace Sys2Proof.Machine

/-- The trigger indices in order. -/
def allTrigs : List TrigIx := List.finRange 16

/-- The link targets of a target set. -/
def targetLinks (t : TargetSet) : LinkSet := t.extractLsb' 0 6

/-- PANEL is in a target set (R185, bit 6). -/
def targetPanel (t : TargetSet) : Bool := t.getLsbD 6

/-- The send time of an entry is at or before the rack time: its compare time less the LEAD in force (R118, R121). -/
def sendDue (s : State) (e : TrigEntry) : Bool := decide (e.compare.toNat ≤ s.rack.toNat + s.lead)

/-! ### The panel event (R123) -/

/-- A pulse is called for on the TRIG line of link `n` of a pending pulse: its entry is ACTIVE, and its frame has not left
ACTIVE since the send event (R123). -/
def pulseReaches (p : PendingPulse) (s : State) (n : Link) : Bool :=
  decide ((s.entry n).state = .active) && !p.left.getLsbD n

/-- Carries out the pulses of a pending pulse: TRIGOUT if it records PANEL, and the TRIG line of each of its links that it
still reaches (R123). -/
def firePulse (p : PendingPulse) (s : State) : State :=
  let s := if p.panel then callPanelPulse s else s
  (linksOf p.links).foldl (fun s n => if pulseReaches p s n then callTrigPulse s n else s) s

/-- The panel event of entry `i`: its pending pulse, if any, is carried out and removed (R123). -/
def panelNow (i : TrigIx) (s : State) : State :=
  match (s.trig i).pulse with
  | some p => firePulse p (s.modTrig i fun e => { e with pulse := none })
  | none => s

/-! ### The send event (R122, R124, R125) -/

/-- Link `n` is an eligible target: its entry is ACTIVE and its port UP (R122). -/
def targetEligible (s : State) (n : Link) : Bool :=
  decide ((s.entry n).state = .active) && decide ((s.port n).state = .up)

/-- Offers a TRIGGER cell; a refused one is counted in TRIG_MISSED (R127). -/
def offerTrigger (n : Link) (c : TrigCell) (s : State) : State :=
  if arbiterTakes (s.port n).state (.trig c) then offerCell n (.trig c) s else s.count n .trigMissed

/-- The late flag for a target link: the send rack time plus D is later than the compare time, an absent D counting as
0 (R114). -/
def lateFor (s : State) (n : Link) (compare : Time) : Bool :=
  decide (compare.toNat < s.rack.toNat + ((s.sync n).delay.getD 0))

/-- The send event of entry `i` acts on target link `n` (R122). -/
def sendTarget (i : TrigIx) (late : Bool) (s : State) (n : Link) : State :=
  let e := s.trig i
  if targetEligible s n then
    offerTrigger n { compare := e.compare, code := e.code, index := i, late := late || lateFor s n e.compare } s
  else
    (s.modTrig i fun e => { e with missedTargets := satAdd e.missedTargets 1 }).count n .trigMissed

/-- The entry passes to DONE with an outcome, and its owner is told (R124, R125, R129). -/
def finishTrig (i : TrigIx) (outcome : TrigOutcome) (f : TrigEntry → TrigEntry) (s : State) : State :=
  let owner := (s.trig i).owner
  notifyOwner .trigger owner (s.modTrig i fun e => { f e with state := .done, outcome := outcome })

/-- The number of successive instances, the one with compare time `next` first, whose send times are at or before the
rack time (R125). -/
def dueInstances (s : State) (next period : Nat) : Nat :=
  if s.rack.toNat + s.lead < next then 0 else (s.rack.toNat + s.lead - next) / period + 1

/-- The step of an AT_TIME entry to its next instance, with the skip rule (R124, R125). -/
def nextInstance (i : TrigIx) (s : State) : State :=
  let e := s.trig i
  let next := e.compare.toNat + e.period
  let left := e.repeats - 1
  let due := dueInstances s next e.period
  if due = 0 then
    s.modTrig i fun e => { e with compare := fitTime next, repeats := left }
  else if e.repeats ≠ 0 ∧ left ≤ due then
    finishTrig i .skipped
      (fun e => { e with
        skips := satAdd e.skips left
        repeats := 1
        compare := fitTime ((next + (left - 1) * e.period : Nat)) }) s
  else
    notifyOwner .trigger e.owner
      (s.modTrig i fun e => { e with
        skips := satAdd e.skips due
        repeats := left - due
        compare := fitTime ((next + due * e.period : Nat)) })

/-- After the send event the entry goes on by its mode, period and repeat (R124). -/
def afterSend (i : TrigIx) (late : Bool) (s : State) : State :=
  let e := s.trig i
  if e.repeats = 1 ∨ (e.mode = .atTime ∧ e.period = 0) then
    finishTrig i (if late then .late else .fired) (fun e => { e with repeats := 0 }) s
  else
    match e.mode with
    | .onCapture => s.modTrig i fun e => { e with state := .waiting, repeats := e.repeats - 1 }
    | .atTime => nextInstance i s

/-- The send event of entry `i`, which is ARMED; `byStep` when a forward step of rack time causes it (R121, R122,
R126). -/
def sendNow (i : TrigIx) (byStep : Bool) (s : State) : State :=
  let e := s.trig i
  let late := decide (e.compare.toNat < s.rack.toNat) || byStep
  let targets := linksOf (targetLinks e.targets)
  let links := (targets.filter (targetEligible s)).foldl (fun a n => a ||| linkBit n) 0#6
  let s := targets.foldl (sendTarget i late) s
  let s := panelNow i s
  let s := s.modTrig i fun e => { e with
    pulse := some { compare := e.compare, panel := targetPanel e.targets, links := links, left := 0 }
    fires := satAdd e.fires 1 }
  let s := if e.compare.toNat ≤ s.rack.toNat then panelNow i s else s
  afterSend i late s

/-- The send time of an entry that has become ARMED is tested; if it is due, the send event happens at once (R121). -/
def testArmed (s : State) (i : TrigIx) : State :=
  if (s.trig i).state = .armed ∧ sendDue s (s.trig i) then sendNow i false s else s

/-! ### Steps of rack time (R126) -/

/-- A pending pulse whose compare time a forward step has passed is made at once (R126). -/
def stepPulse (s : State) (i : TrigIx) : State :=
  match (s.trig i).pulse with
  | some p => if p.compare.toNat ≤ s.rack.toNat then panelNow i s else s
  | none => s

/-- An ARMED entry whose send time a forward step has passed sends once, late (R126). -/
def stepSend (s : State) (i : TrigIx) : State :=
  if (s.trig i).state = .armed ∧ sendDue s (s.trig i) then sendNow i true s else s

/-- The Trigger Unit at a forward step (R126). The pulses come before the sends, each in the order of the entries, which
is a DESIGN CHOICE (log 12). -/
def trigForward (s : State) : State := allTrigs.foldl stepSend (allTrigs.foldl stepPulse s)

/-! ### Captures (R131 to R133) -/

/-- A capture is stored as the newest, or counted in CAPTURE_OVERFLOW (R132). -/
def storeCapture (c : Capture) (s : State) : State :=
  if s.captures.length < captureCapacity then
    let wasEmpty := s.captures.isEmpty
    let s := { s with captures := s.captures ++ [c] }
    if wasEmpty then notifyAll .capture s else s
  else { s with captureOverflow := satAdd s.captureOverflow 1 }

/-- A capture is offered to entry `i`: a WAITING entry of its source is armed, an ARMED one counts a missed capture
(R133). -/
def offerCapture (c : Capture) (s : State) (i : TrigIx) : State :=
  let e := s.trig i
  if e.mode = .onCapture ∧ e.source = some c.source then
    match e.state with
    | .waiting =>
      testArmed (s.modTrig i fun e => { e with
        state := .armed
        compare := fitTime ((c.time.toNat + e.delay.getD 0 : Nat)) }) i
    | .armed => s.modTrig i fun e => { e with missedCaptures := satAdd e.missedCaptures 1 }
    | .free => s
    | .done => s
  else s

/-- A capture is made: numbered, stored and offered for cross-triggering (R131). -/
def makeCapture (origin : CaptureOrigin) (source : CaptureSource) (time : Time) (uncompensated : Bool)
    (intended : Option Time) (code : Option (BitVec 4)) (s : State) : State :=
  let number := s.captureCount + 1
  let c : Capture :=
    { number := number, origin := origin, source := source, time := time, uncompensated := uncompensated,
      unlocked := decide (s.tb.state ≠ .locked), intended := intended, code := code }
  allTrigs.foldl (offerCapture c) (storeCapture c { s with captureCount := number })

/-! ### Departures (R128) -/

/-- An entry owned by Fn in WAITING or ARMED. -/
def cancelledBy (n : Link) (e : TrigEntry) : Bool :=
  decide (e.owner = some (.frame n)) && (decide (e.state = .waiting) || decide (e.state = .armed))

/-- A pending pulse learns that the frame of link `n` has left ACTIVE (R123). -/
def departPulse (n : Link) (p : PendingPulse) : PendingPulse := { p with left := p.left ||| linkBit n }

/-- What the departure of frame n makes of an entry (R128); the pending pulse stays, and learns of it (R123). -/
def departTrig (n : Link) (e : TrigEntry) : TrigEntry :=
  let e := { e with pulse := e.pulse.map (departPulse n) }
  if e.owner = some (.frame n) then
    if e.state = .waiting ∨ e.state = .armed then
      { e with state := .done, outcome := .cancelledSwap, owner := none }
    else { e with owner := none }
  else e

/-- When entry n leaves ACTIVE, every trigger entry owned by Fn is cancelled or disowned, TRIGGER is set pending for the
RCP if one was cancelled (R128), and no pending pulse reaches link n any more (R123). -/
def cancelTriggers (n : Link) (s : State) : State :=
  let cancelled := s.trigs.toList.any (cancelledBy n)
  let s := { s with trigs := s.trigs.map (departTrig n) }
  if cancelled then notify .trigger s .rcp else s

end Sys2Proof.Machine
end

