-- ==== Sys2Proof/Machine/TimeOps.lean ====
section
/-! DEFINITION. The Timebase Unit's shared operations: source selection, runs and states, the exchange schedule, the
exchange arithmetic, steering and the step of rack time (chapters 5 and 6). -/

namespace Sys2Proof.Machine

/-! ### Follower state (R106, R109) -/

/-- UNTIMED with all three follower runs 0 (R106, R109, R110). -/
def followerReset (l : LinkSync) : LinkSync := { l with follower := .untimed, within := 0, beyond := 0, missing := 0 }

/-- SETTLING or TIMED, with all three follower runs 0 (R106). -/
def followerTo (st : FollowerState) (l : LinkSync) : LinkSync :=
  { l with follower := st, within := 0, beyond := 0, missing := 0 }

/-! ### The exchange schedule (R87, R109) -/

/-- Brings the exchange schedule of link `n` up to date with its eligibility: it starts, with an exchange due at once,
when the link becomes eligible, and stops when it ceases to be, which also makes the follower UNTIMED (R87, R109). -/
def refreshSchedule (n : Link) (s : State) : State :=
  if eligible s n then
    match (s.sync n).schedule with
    | some _ => s
    | none => s.modSync n fun l => { l with schedule := some { lastDue := none, nextDue := s.osc } }
  else s.modSync n fun l => { followerReset l with schedule := none }

/-! ### Source selection (R79 to R81) -/

/-- The three runs of the timebase set to 0. -/
def clearRuns (t : Timebase) : Timebase := { t with good := 0, bad := 0, missing := 0 }

/-- The source switches to link `n` (R80), which makes its follower state UNTIMED (R110). -/
def switchSource (n : Link) (s : State) : State :=
  let s := s.modTb fun t => { clearRuns t with source := .link n, state := .acquiring, holdoverSince := none }
  notifyAll .time (s.modSync n followerReset)

/-- The source is lost with no candidate remaining (R81). -/
def loseSource (s : State) : State :=
  let osc := s.osc
  notifyAll .time (s.modTb fun t =>
    match t.state with
    | .acquiring => { clearRuns t with state := .holdover, source := .none, trim := t.integ, holdoverSince := some osc }
    | .locked => { clearRuns t with state := .holdover, source := .none, trim := t.integ, holdoverSince := some osc }
    | .holdover => { clearRuns t with source := .none }
    | .freerun => { clearRuns t with source := .internal, trim := t.freeTrim, holdoverSince := none })

/-- Compares the best candidate with the current source (R79). -/
def compareSource (s : State) : State :=
  match bestCandidate s with
  | some n => if s.tb.source = .link n then s else switchSource n s
  | none =>
    match s.tb.source with
    | .link _ => loseSource s
    | .internal => s
    | .none => s

/-! ### Missing exchanges (R83, R94, R105, R106) -/

/-- The timebase enters HOLDOVER with its source kept (R83). -/
def enterHoldover (s : State) : State :=
  let osc := s.osc
  notifyAll .time (s.modTb fun t =>
    { clearRuns t with state := .holdover, trim := t.integ, holdoverSince := some osc })

/-- A missing or discarded exchange of the source (R94), with the test of R83. -/
def missSource (s : State) : State :=
  let s := s.modTb fun t => { t with good := 0, bad := 0, missing := min (t.missing + 1) 4 }
  if s.tb.missing = 4 ∧ (s.tb.state = .acquiring ∨ s.tb.state = .locked) then enterHoldover s else s

/-- A missing or discarded exchange of a follower (R105), with the test of R106. -/
def missFollower (l : LinkSync) : LinkSync :=
  let l := { l with within := 0, beyond := 0, missing := min (l.missing + 1) 4 }
  if l.missing = 4 ∧ l.follower ≠ .untimed then followerReset l else l

/-- Counts a missing or discarded exchange for the role link `n` has now; that of a link that is not eligible is counted
in no run (R89, R90). -/
def countMissing (n : Link) (s : State) : State :=
  if eligible s n then
    match syncRole s n with
    | .source => missSource s
    | .follower => s.modSync n missFollower
    | .notEligible => s
  else s

/-- The open exchange of link `n`, if any, closes as missing (R88, R89). -/
def closeMissing (n : Link) (s : State) : State :=
  match (s.sync n).exchange with
  | some _ => countMissing n (s.modSync n fun l => { l with exchange := none })
  | none => s

/-! ### The exchange arithmetic (R90, R92, R93) -/

/-- A difference of two 64-bit counts, taken modulo 2^64 and read as signed (R92, stage 1). -/
def diff64 (a b : Time) : Int := (a - b).toInt

/-- The four timestamps of an exchange (0.6). -/
structure Stamps where
  t1 : Time
  t2 : Time
  t3 : Time
  t4 : Time
  deriving DecidableEq, Repr

/-- A = t2 - t1 (R92, stage 1). -/
def stampA (t : Stamps) : Int := diff64 t.t2 t.t1

/-- R = (t4 - t1) - (t3 - t2) (R92, stage 2). -/
def roundTrip (t : Stamps) : Int := diff64 t.t4 t.t1 - diff64 t.t3 t.t2

/-- d = floor(R / 2), for R not below 0 (R92, stage 3). -/
def exchangeDelay (t : Stamps) : Nat := (roundTrip t / 2).toNat

/-- What a used exchange of delay `d` makes of the delay estimate: the new D, the new shift count, and whether a cable
change is taken (R92, stage 3, R107). -/
def updateDelay (delay : Option Nat) (shift d : Nat) : Nat × Nat × Bool :=
  match delay with
  | none => (d, 0, false)
  | some old =>
    let diff : Int := (d : Int) - (old : Int)
    let shift := if diff.natAbs ≤ shiftNs then 0 else shift + 1
    if 3 ≤ shift then (d, 0, true)
    else (((old : Int) + Int.tdiv diff 8).toNat, shift, false)

/-- Clamps to a range (0.7). -/
def clampInt (lo hi x : Int) : Int := if x < lo then lo else if hi < x then hi else x

/-- P = trunc(theta * 2^k / 4) (R96). -/
def proportional (theta : Int) (k : Nat) : Int := Int.tdiv (theta * 2 ^ k) 4

/-- trunc(theta * 2^k / 64) (R96). -/
def integratorStep (theta : Int) (k : Nat) : Int := Int.tdiv (theta * 2 ^ k) 64

/-- Stage 6, steering (R96). -/
def steer (theta : Int) (t : Timebase) : Timebase :=
  let i := clampInt (-trimBound) trimBound (t.integ + integratorStep theta t.k)
  { t with integ := i, trim := clampInt (-trimBound) trimBound (i + proportional theta t.k) }

/-! ### The step of rack time (R95, R97) -/

/-- Every open exchange whose t1 has been taken is marked stale (R97). -/
def markStale (l : LinkSync) : LinkSync :=
  { l with exchange := l.exchange.map fun x => if x.t1.isSome then { x with stale := true } else x }

/-- The rack time after a step: a backward step below 0 sets it to 0 (R95). -/
def steppedRack (rack : Time) (theta : Int) : Time :=
  if theta < 0 ∧ (rack.toNat : Int) + theta < 0 then 0 else fitTime ((rack.toNat : Int) + theta)

/-- The Stream Switch at a forward step: each entry whose expiry has been passed is dealt with (R163). -/
def holdsForward (s : State) : State :=
  (s.holds.filter fun h => decide (h.expiry.toNat ≤ s.rack.toNat)).foldl (fun s h => expireHold h s) s

/-- Stage 5, the step (R95), made known to the Trigger Unit and the Stream Switch (R97). That the TRIGGER cells of R126
are offered before the HOLD cells of R163 is a DESIGN CHOICE (log 12): of the two, an idle link sends first the one that
is offered first. -/
def stepRack (theta : Int) (s : State) : State :=
  let s := { s with
    rack := steppedRack s.rack theta
    tb := { clearRuns s.tb with permitUsed := true }
    syncs := s.syncs.map markStale }
  let s := notifyAll .time s
  if 0 < theta then holdsForward (trigForward s) else s

/-! ### A used exchange of the source (R82, R84, R91, R94) -/

/-- A step is taken: ACQUIRING, the permit UNUSED, and the offset above the step threshold (R95). -/
def stepTaken (theta : Int) (t : Timebase) : Bool :=
  decide (t.state = .acquiring) && !t.permitUsed && decide (t.stepThreshold < theta.natAbs)

/-- The runs after a used exchange in ACQUIRING or LOCKED (R94). -/
def countUsed (theta : Int) (t : Timebase) : Timebase :=
  if theta.natAbs ≤ t.window then { t with good := min (t.good + 1) 8, bad := 0, missing := 0 }
  else if theta.natAbs ≤ 4 * t.window then { t with good := 0, bad := 0, missing := 0 }
  else { t with good := 0, bad := min (t.bad + 1) 3, missing := 0 }

/-- The tests of R82. -/
def testLock (s : State) : State :=
  if s.tb.state = .acquiring ∧ s.tb.good = 8 then
    notifyAll .time (s.modTb fun t => { clearRuns t with state := .locked, permitUsed := true })
  else if s.tb.state = .locked ∧ s.tb.bad = 3 then
    notifyAll .time (s.modTb fun t => { clearRuns t with state := .acquiring })
  else s

/-- A used exchange of the source in HOLDOVER or FREERUN: the runs, and the test of R84. -/
def usedWhileLost (s : State) : State :=
  let s := s.modTb fun t => { t with good := min (t.good + 1) 8, bad := 0, missing := 0 }
  if 2 ≤ s.tb.good then
    notifyAll .time (s.modTb fun t => { clearRuns t with state := .acquiring, holdoverSince := none })
  else s

/-- A used exchange of the source link with offset `theta` (R91, step 3). -/
def useAsSource (theta : Int) (s : State) : State :=
  match s.tb.state with
  | .holdover => usedWhileLost s
  | .freerun => usedWhileLost s
  | .acquiring =>
    if stepTaken theta s.tb then stepRack theta s
    else testLock (s.modTb fun t => countUsed theta (steer theta t))
  | .locked => testLock (s.modTb fun t => countUsed theta (steer theta t))

/-! ### A used exchange of a follower (R104 to R106, R108) -/

/-- The follower runs and state after a used exchange with offset `theta` (R105, R106). -/
def countFollower (theta : Int) (window : Nat) (l : LinkSync) : LinkSync :=
  let l := if l.follower = .untimed then followerTo .settling l else l
  match l.follower with
  | .settling =>
    let l := { l with
      within := if theta.natAbs ≤ window then min (l.within + 1) 4 else 0
      beyond := 0
      missing := 0 }
    if l.within = 4 then followerTo .timed l else l
  | .timed =>
    let l := { l with
      within := 0
      beyond := if theta.natAbs ≤ 4 * window then 0 else min (l.beyond + 1) 2
      missing := 0 }
    if l.beyond = 2 then followerTo .settling l else l
  | .untimed => l

/-- A used exchange of follower link `n`: counted, tested, and answered with a SYNC_RESULT (R104, R108). A SYNC_RESULT
the arbiter refuses is lost. -/
def useAsFollower (n : Link) (number : BitVec 16) (theta : Int) (s : State) : State :=
  let s := s.modSync n (countFollower theta s.tb.window)
  offerCell n (.sync (.result number theta ((s.sync n).delay.getD 0) (s.sync n).follower s.tb.state)) s

/-! ### A taken reply (R90, R91) -/

/-- What a SYNC_REPLY carries that the exchange uses. -/
structure ReplyData where
  number : BitVec 16
  t2 : Time
  t3 : Time
  t2Valid : Bool
  t3Valid : Bool
  grade : Nat
  deriving DecidableEq, Repr

/-- The D, shift count and cable change that this exchange would produce on link `n` (R92, R107). -/
def producedDelay (s : State) (n : Link) (t : Stamps) : Nat × Nat × Bool :=
  updateDelay (s.sync n).delay (s.sync n).shift (exchangeDelay t)

/-- The offset with the delay estimate that the exchange would produce (R90, R93). -/
def producedTheta (s : State) (n : Link) (t : Stamps) : Int := stampA t - (producedDelay s n t).1

/-- A taken reply passes every test of R90. -/
def replyUsable (s : State) (n : Link) (x : Exchange) (r : ReplyData) (t : Stamps) : Bool :=
  r.t2Valid && r.t3Valid && decide (r.grade ≤ 3)
    && decide (0 ≤ roundTrip t) && decide (roundTrip t ≤ rttMax)
    && decide ((producedTheta s n t).natAbs < thetaBound)
    && !x.stale

/-- Step 1 of R91: D, with the cable change of R107, the reply grade and its comparison; step 2: the last offset. -/
def applyReply (n : Link) (t : Stamps) (grade : Nat) (s : State) : State :=
  let p := producedDelay s n t
  let theta := producedTheta s n t
  let rack := s.rack
  let settle := decide (syncRole s n = .follower)
  let s := s.modSync n fun l =>
    let l := { l with
      delay := some p.1, shift := p.2.1, grade := some grade, lastOffset := some theta }
    if p.2.2 then
      let l := { l with lastShift := some { moment := rack, before := (s.sync n).delay.getD 0, after := p.1 } }
      if settle ∧ l.follower ≠ .untimed then followerTo .settling l else l
    else l
  let s := if p.2.2 then notifyAll .link s else s
  compareSource s

/-- A used exchange on link `n`, in the order of R91. -/
def useExchange (n : Link) (r : ReplyData) (t : Stamps) (s : State) : State :=
  let theta := producedTheta s n t
  let s := applyReply n t r.grade s
  if s.tb.source = .link n then useAsSource theta s else useAsFollower n r.number theta s

/-- A reply taken by R89, whose exchange `x` has closed: used, or discarded and treated as missing (R90). -/
def takeReply (n : Link) (x : Exchange) (r : ReplyData) (t1 : Time) (s : State) : State :=
  let t : Stamps := { t1 := t1, t2 := r.t2, t3 := r.t3, t4 := s.rack }
  if replyUsable s n x r t then useExchange n r t s
  else countMissing n (s.count n .syncDiscarded)

/-- A SYNC_REPLY is matched against the open exchange of link `n` (R89). -/
def matchReply (n : Link) (r : ReplyData) (s : State) : State :=
  match (s.sync n).exchange with
  | some x =>
    match x.t1 with
    | some t1 =>
      if x.limit.isSome ∧ x.number = r.number then
        let s := s.modSync n fun l => { l with exchange := none }
        if eligible s n then takeReply n x r t1 s else s.count n .syncDiscarded
      else s.count n .syncDiscarded
    | none => s.count n .syncDiscarded
  | none => s.count n .syncDiscarded

/-- The holdover limit is reached: FREERUN, with T and the source kept (R84). -/
def leaveHoldover (s : State) : State :=
  notifyAll .time (s.modTb fun t => { clearRuns t with state := .freerun, holdoverSince := none })

/-- The holdover timer has reached the holdover limit in force (R84). -/
def holdoverOver (s : State) : Bool :=
  match s.tb.holdoverSince with
  | some since => decide (s.tb.state = .holdover) && decide (since + s.tb.holdoverLimit * secondNs ≤ s.osc)
  | none => false

/-- A change of k moves the next due time of each running schedule to the last due time plus the new period, or to now
if that has passed (R87, R100). -/
def rescheduleLinks (s : State) : State :=
  let period := exchangePeriod s.tb.k
  { s with syncs := s.syncs.map fun l =>
      { l with schedule := l.schedule.map fun sc =>
          match sc.lastDue with
          | some d => { sc with nextDue := max (d + period) s.osc }
          | none => sc } }

end Sys2Proof.Machine
end

