-- ==== Sys2Proof/Machine/LinkOps.lean ====
section
/-! DEFINITION. The link-level reset (R14), transitions of roster entries with their departure effects (R44), and
transitions of link ports (chapters 1 and 3). -/

namespace Sys2Proof.Machine

/-! ### The link-level reset (R14, Table 1.7 (1)) -/

/-- The waiting TRIGGER cells of a port. -/
def waitingTriggers (p : LinkPort) : Nat := p.waitTrig.length + (if p.trigHead.isSome then 1 else 0)

/-- The Link Port row: waiting cells discarded, a transmission abandoned; the active lane set and the errored-cell run
go too, unless the port is still in service (R14, R44). -/
def clearPort (p : LinkPort) : LinkPort :=
  let p := { p with
    waitSync := [], trigHead := none, waitTrig := [], waitHold := [], waitCtrl := [], tx := none }
  if inService p.state then p else { p with lanes := 0, errRun := 0 }

/-- The Link Port and egress queue rows, with TRIG_MISSED for each TRIGGER cell discarded (R14, R127). -/
def resetPort (n : Link) (s : State) : State :=
  let missed := waitingTriggers (s.port n)
  let s := (flushLink n s).modQueues n fun q => { q with run := 0 }
  (s.modPort n clearPort).countBy n .trigMissed missed

/-- The hold list row (R14). -/
def resetHolds (n : Link) (s : State) : State :=
  releaseHolds (fun h => decide (h.egress = n)) { s with holds := s.holds.filter fun h => !decide (h.source = n) }

/-- The Timebase Unit row (R14, R109). -/
def resetSync (n : Link) (s : State) : State :=
  (closeMissing n s).modSync n fun l =>
    { followerReset l with delay := none, grade := none, lastOffset := none, shift := 0 }

/-- The Lane Margin Unit row (R14, R26). -/
def resetMargin (n : Link) (s : State) : State :=
  (abortProbe n .abortLink s).modMargin n fun m => { m with result := .default }

/-- What a waiting or running write becomes when the request behind it is ended (R137). -/
def orphan (n : Link) (w : WriteRequest) : WriteRequest :=
  if w.requester = .frame n then { w with orphaned := true } else w

/-- Applies a change to the request behind a waiting write. -/
def mapWaiting (f : WriteRequest → WriteRequest) : WaitingWrite → WaitingWrite
  | .set w r => .set (f w) r
  | .clear w i => .clear (f w) i
  | .sweep => .sweep

/-- Applies a change to the request behind the write in progress. -/
def mapActive (f : WriteRequest → WriteRequest) : ActiveWrite → ActiveWrite
  | .replace w r i => .replace (f w) r i
  | .create w r i => .create (f w) r i
  | .clear w i => .clear (f w) i
  | .sweep es => .sweep es

/-- Applies a change to the request behind every route write. -/
def mapWrites (f : WriteRequest → WriteRequest) (s : State) : State :=
  { s with writing := s.writing.map (mapActive f), waiting := s.waiting.map (mapWaiting f) }

/-- The Request Unit row: Fn's request in progress loses its response, and its two flags are cleared (R14, R137,
R169, R176). -/
def resetRequests (n : Link) (s : State) : State :=
  ((mapWrites (orphan n) s).modClient (.frame n) fun c => { c with busy := false }).setOutstanding n false

/-- The link-level reset of link `n`, but for the hand-over to the Frame Roster, which the caller makes (R14). -/
def linkReset (n : Link) (s : State) : State :=
  resetRequests n (resetMargin n (resetSync n (resetHolds n (resetPort n s))))

/-! ### Transitions of a roster entry (R35, R44) -/

/-- Every exit from ACTIVE or DRAINING to QUIESCED, FAULTED or EMPTY (R44). -/
def leavesService (old new : RosterState) : Bool :=
  (decide (old = .active) || decide (old = .draining))
    && (decide (new = .quiesced) || decide (new = .faulted) || decide (new = .empty))

/-- The fields of an entry that passes to a state: timers of other states stop (R39, R45, R51), the swap-pending flag
goes at EMPTY, FAULTED and QUIESCED (R52), and the identity and admitted-at at EMPTY (R51). -/
def entryTo (st : RosterState) (e : RosterEntry) : RosterEntry :=
  let e := { e with state := st, identWait := none, drainEnds := none }
  match st with
  | .empty => { e with swapPending := false, identity := none, admittedAt := none }
  | .faulted => { e with swapPending := false }
  | .quiesced => { e with swapPending := false }
  | .detected => e
  | .probing => e
  | .identifying => e
  | .pending => e
  | .active => e
  | .draining => e

/-- A route of Fn passes to owner NONE (R44, R142). -/
def disownRoute (n : Link) (r : Route) : Route := if r.owner = some (.frame n) then { r with owner := none } else r

/-- A write of Fn learns of the departure (R139). -/
def departWrite (n : Link) (w : WriteRequest) : WriteRequest :=
  if w.requester = .frame n then { w with departed := true } else w

/-- Every route entry owned by Fn passes to owner NONE, and so will the entry a write of Fn creates (R44, R139). -/
def disownRoutes (n : Link) (s : State) : State :=
  let s := mapWrites (departWrite n) s
  { s with routes := s.routes.map fun r => r.map (disownRoute n) }

/-- What the other blocks make of entry `n` having passed from state `old` to state `new` (R27, R44, R73, R79, R87). -/
def rosterEffects (n : Link) (old new : RosterState) (s : State) : State :=
  let s := probeFollowsRoster n (refreshSchedule n s)
  let s := if old = .active ∧ new ≠ .active then cancelTriggers n s else s
  let s := if (old = .active ∧ new ≠ .active) ∨ (old ≠ .active ∧ new = .active) then compareSource s else s
  let s := if leavesService old new then disownRoutes n (linkReset n s) else s
  if new = .quiesced then endTrigPulse n s else s

/-- Entry `n` passes to state `st`, with `f` the fields that the transition writes; every change of state sets ROSTER
pending for all (R35). -/
def moveEntry (n : Link) (st : RosterState) (f : RosterEntry → RosterEntry) (s : State) : State :=
  let old := (s.entry n).state
  let s := rosterEffects n old st (s.modEntry n fun e => f (entryTo st e))
  if old = st then s else notifyAll .roster s

/-! ### Transitions of a port, as far as they move no entry up the admission path -/

/-- The roster is told that link `n` is DOWN or OFF (R38, R39, R41, R43, R47, R50). -/
def tellLinkDown (n : Link) (s : State) : State :=
  match (s.entry n).state with
  | .probing => moveEntry n .detected id s
  | .identifying => moveEntry n .detected id s
  | .pending => moveEntry n .detected id s
  | .active => moveEntry n .faulted (fun e => { e with lastCause := .link }) s
  | .draining => moveEntry n .faulted (fun e => { e with lastCause := .link }) s
  | .empty => s
  | .detected => s
  | .quiesced => s
  | .faulted => s

/-- The port enters TRAINING: the training limit starts (R3). -/
def beginTraining (n : Link) (s : State) : State :=
  s.modPort n fun p => { p with state := .training, limit := some (s.osc + trainingLimitNs) }

/-- A DOWN port passes to TRAINING when PRESENT is high, retry is not barred and there is partner activity (R2); not
while RESET is asserted, when all lanes are quiet (R20). -/
def tryTrain (n : Link) (s : State) : State :=
  if (s.port n).state = .down ∧ (s.line n).presentPin ∧ ¬ retryBarred (s.port n) ∧ (s.port n).activity
      ∧ ¬ s.resetAsserted then
    beginTraining n s
  else s

/-- The state of the port becomes DOWN or OFF, and its limit stops (R1, R2); the exchange schedule follows (R87). -/
def enterIdle (n : Link) (st : LinkState) (s : State) : State :=
  refreshSchedule n (s.modPort n fun p => { p with state := st, limit := none })

/-- A port leaves its state for DOWN or OFF. A probe in progress ends first, so that none is ever in progress on a link
out of UP (R22, R26); then LINK is set pending for all, the link-level reset is applied and the roster is told (R1, R2,
R14). -/
def portIdle (n : Link) (st : LinkState) (s : State) : State :=
  tellLinkDown n (linkReset n (notifyAll .link (enterIdle n st (abortProbe n .abortLink s))))

/-- A port in TRAINING, UP or RECOVERY passes to DOWN (R2). Training again is the caller's (`tryTrain`). -/
def portDown (n : Link) (s : State) : State := portIdle n .down s

/-- The port passes to OFF; a port already OFF stays so without a further reset (R1). -/
def portOff (n : Link) (s : State) : State :=
  if (s.port n).state = .off then s else portIdle n .off s

/-- A port in OFF whose setting is ON and whose entry is not QUIESCED passes to DOWN (R1), and trains if it may (R2). -/
def leaveOff (n : Link) (s : State) : State :=
  if (s.port n).state = .off ∧ (s.port n).enabled ∧ (s.entry n).state ≠ .quiesced then
    tryTrain n (tellLinkDown n (linkReset n (enterIdle n .down s)))
  else s

/-! ### Transitions of an entry that reach the port or go on to a further state -/

/-- The entry passes to QUIESCED: the port goes OFF and the hold is applied (R48). -/
def toQuiesced (n : Link) (cause : Cause) (s : State) : State :=
  portOff n (moveEntry n .quiesced (fun e => { e with lastCause := cause }) s)

/-- The entry passes to EMPTY with cause PRESENCE; a port that was OFF because the entry was QUIESCED leaves OFF (R1,
R49, R51). -/
def toEmpty (n : Link) (s : State) : State :=
  leaveOff n (moveEntry n .empty (fun e => { e with lastCause := .presence }) s)

/-- The entry passes to PROBING, and the admission sequence starts, at once if the port is UP (R31, R38). -/
def toProbing (n : Link) (s : State) : State :=
  let s := moveEntry n .probing id s
  if (s.port n).state = .up then startAdmission n s else s

/-- The entry passes to DETECTED, and to PROBING at that moment if the link is already UP (R37). -/
def toDetected (n : Link) (s : State) : State :=
  let s := moveEntry n .detected id s
  if inService (s.port n).state then toProbing n s else s

/-- Drain completion is reported when the entry is DRAINING, both egress queues are empty and no block is in
transmission (R46, R159). -/
def drainTest (n : Link) (s : State) : State :=
  if (s.entry n).state = .draining ∧ (s.queues n).expedite = [] ∧ (s.queues n).normal = []
      ∧ sendingBlock (s.port n) = none then
    toQuiesced n .none s
  else s

/-- The entry passes to DRAINING: the drain limit starts with the setting of this moment, and a drain with nothing
queued is complete at once (R45). -/
def toDraining (n : Link) (s : State) : State :=
  let ends := s.osc + s.drainLimitMs * millisecondNs
  drainTest n (moveEntry n .draining (fun e => { e with drainEnds := some ends }) s)

/-- The entry passes to ACTIVE: epoch, admitted-at and services; a set swap-pending flag starts a drain at once
(R42). -/
def toActive (n : Link) (s : State) : State :=
  let rack := s.rack
  let s := moveEntry n .active (fun e => { e with epoch := e.epoch + 1, admittedAt := some rack }) s
  if (s.entry n).swapPending then toDraining n (s.modEntry n fun e => { e with swapPending := false }) else s

/-- The entry passes to IDENTIFYING, and the identity wait of 2 s starts (R39). -/
def toIdentifying (n : Link) (s : State) : State :=
  let ends := s.osc + identityWaitNs
  moveEntry n .identifying (fun e => { e with identWait := some ends }) s

/-- The entry passes to FAULTED with a cause (R50). -/
def toFaulted (n : Link) (cause : Cause) (s : State) : State :=
  moveEntry n .faulted (fun e => { e with lastCause := cause }) s

/-- The roster is told that link `n` is UP (R37, R50). -/
def tellLinkUp (n : Link) (s : State) : State :=
  match (s.entry n).state with
  | .detected => toProbing n s
  | .faulted => toProbing n s
  | .empty => s
  | .probing => s
  | .identifying => s
  | .pending => s
  | .active => s
  | .draining => s
  | .quiesced => s

/-! ### Presence edges (R36) -/

/-- A falling presence edge reaches the roster (R51). -/
def presenceFalls (n : Link) (s : State) : State :=
  let s := s.modEntry n fun e => { e with presence := false }
  if (s.entry n).state = .empty then s else toEmpty n s

/-- A rising presence edge reaches the roster (R37). -/
def presenceRises (n : Link) (s : State) : State :=
  let s := s.modEntry n fun e => { e with presence := true }
  if (s.entry n).state = .empty then toDetected n s else s

/-- PRESENT has returned to FUNCTION mode: the pin is compared with roster presence (R36). -/
def samplePresence (n : Link) (s : State) : State :=
  match (s.line n).presentPin, (s.entry n).presence with
  | true, false => presenceRises n s
  | false, true => presenceFalls n s
  | true, true => s
  | false, false => s

/-- A swap request reaches the roster (R43, R52). -/
def swapRequested (n : Link) (s : State) : State :=
  match (s.entry n).state with
  | .active => toDraining n s
  | .detected => s.modEntry n fun e => { e with swapPending := true }
  | .probing => s.modEntry n fun e => { e with swapPending := true }
  | .identifying => s.modEntry n fun e => { e with swapPending := true }
  | .pending => s.modEntry n fun e => { e with swapPending := true }
  | .empty => s
  | .draining => s
  | .quiesced => s
  | .faulted => s

/-! ### A port comes UP, recovers, or enters RECOVERY -/

/-- The port passes from TRAINING to UP on a lane set (R4). -/
def portUp (n : Link) (lanes : LaneSet) (s : State) : State :=
  let s := s.modPort n fun p => { p with state := .up, lanes := lanes, failCount := 0, errRun := 0, limit := none }
  startNext n (tellLinkUp n (notifyAll .link (refreshSchedule n s)))

/-- What entry to RECOVERY makes of the arbiter: a SYNC cell in transmission and the waiting SYNC cells are discarded;
any other cell in transmission returns to the head of its category (R9). -/
def portToRecovery (ends : Nat) (p : LinkPort) : LinkPort :=
  let p := { p with state := .recovery, limit := some ends, waitSync := [] }
  match p.tx with
  | some (.cell (.sync _)) => { p with tx := none }
  | some (.cell (.trig c)) => { p with tx := none, trigHead := some c }
  | some (.cell (.hold c)) => { p with tx := none, waitHold := c :: p.waitHold }
  | some (.cell (.ctrl c)) => { p with tx := none, waitCtrl := c :: p.waitCtrl }
  | some (.block _) => p
  | none => p

/-- The port passes from UP to RECOVERY (R9). A probe in progress ends first, while the link is still UP (R22, R26). -/
def enterRecovery (n : Link) (s : State) : State :=
  let sending := (sendingBlock (s.port n)).isSome
  let s := abortProbe n .abortLink s
  let s := s.modPort n (portToRecovery (s.osc + recoveryLimitNs))
  let s := abandonBlock n (s.count n .recoveries)
  let s := closeMissing n (notifyAll .link s)
  if sending then drainTest n s else s

/-- A recovery ends in UP on the lanes that remain; an entry in PROBING starts its admission sequence again (R10, R31,
R33). -/
def recoverUp (n : Link) (lanes : LaneSet) (s : State) : State :=
  let s := s.modPort n fun p => { p with state := .up, lanes := lanes, errRun := 0, limit := none }
  let s := notifyAll .link s
  let s := if (s.entry n).state = .probing then startAdmission n s else s
  startNext n s

end Sys2Proof.Machine
end

