-- ==== Sys2Proof/Machine/Operands.lean ====
section
/-! DEFINITION. The arguments of the request kinds, read from the argument bytes in the order of Table 11.4 (1) by the
encodings of R185. A reader answers the value and the bytes after it, or none where the bytes are too few or a presence
byte or code is not one defined for the field. Bytes beyond the last field are not read. -/

namespace Sys2Proof.Machine

/-! ### Fields (R185) -/

/-- A one-byte field. -/
def read8 : List Byte → Option (Nat × List Byte)
  | a :: rest => some (a.toNat, rest)
  | [] => none

/-- A two-byte field. -/
def read16 : List Byte → Option (Nat × List Byte)
  | a :: b :: rest => some (beNat [a, b], rest)
  | _ => none

/-- A four-byte field. -/
def read32 : List Byte → Option (Nat × List Byte)
  | a :: b :: c :: d :: rest => some (beNat [a, b, c, d], rest)
  | _ => none

/-- An eight-byte field. -/
def read64 : List Byte → Option (Nat × List Byte)
  | a :: b :: c :: d :: e :: f :: g :: h :: rest => some (beNat [a, b, c, d, e, f, g, h], rest)
  | _ => none

/-- A signed four-byte field, in two's complement. -/
def readInt32 (bs : List Byte) : Option (Int × List Byte) :=
  (read32 bs).map fun x => ((BitVec.ofNat 32 x.1).toInt, x.2)

/-- An optional field: a presence byte, 00H or 01H, and then the field when it is 01H. -/
def readOpt {α : Type} (read : List Byte → Option (α × List Byte)) : List Byte → Option (Option α × List Byte)
  | [] => none
  | p :: rest =>
    if p = 0x00#8 then some (none, rest)
    else if p = 0x01#8 then (read rest).map fun x => (some x.1, x.2)
    else none

/-- A value named by its code. -/
def readCode {α : Type} (values : List α) (bs : List Byte) : Option (α × List Byte) :=
  match bs with
  | c :: rest => (values[c.toNat]?).map fun v => (v, rest)
  | [] => none

/-- A link number, 0 to 5. -/
def readLink (bs : List Byte) : Option (Link × List Byte) := readCode allLinks bs

/-! ### Arguments -/

/-- LINK_ENABLE after the link: 00H ON, 01H OFF. -/
def settingArg (bs : List Byte) : Option Bool := (readCode [true, false] bs).map (·.1)

/-- The fields of a LINK_MARGIN START after the link: operation, lane, kind, direction, step limit, error limit. -/
structure ProbeArgs where
  lane : Lane
  kind : ProbeKind
  direction : ProbeDirection
  stepLimit : Nat
  errorLimit : Nat
  deriving DecidableEq, Repr

/-- Out-of-range probe fields are refused, not clamped (Table 2.5 (1), check 3). -/
def probeArgs (bs : List Byte) : Option ProbeArgs := do
  let (_, bs) ← readCode [()] bs
  let (lane, bs) ← readCode ([0, 1, 2, 3] : List Lane) bs
  let (kind, bs) ← readCode [ProbeKind.timing, .level] bs
  let (direction, bs) ← readCode [ProbeDirection.plus, .minus] bs
  let (steps, bs) ← read8 bs
  let (errors, _) ← read8 bs
  if 1 ≤ steps ∧ steps ≤ 31 ∧ errors ≤ 63 then
    some { lane := lane, kind := kind, direction := direction, stepLimit := steps, errorLimit := errors }
  else none

/-- The expected epoch of FRAME_RELEASE and FRAME_EVICT, optional. -/
def epochArg (bs : List Byte) : Option (Option Nat) := (readOpt read16 bs).map (·.1)

/-- ROSTER_CONFIG: a policy for each link whose mask bit is set, and two optional settings. -/
structure RosterArgs where
  policies : List (Option Policy)
  minSteps : Option Nat
  limitMs : Option Nat
  deriving DecidableEq, Repr

/-- One policy byte per link, read only where the mask bit is set; a code other than AUTO or MANUAL fails (R59).
Bits 6 and 7 of the mask name no link, and no rule says what a request with them set gets; that they are ignored is a
DESIGN CHOICE (log 24). -/
def readPolicies (mask : Byte) : List Link → List Byte → Option (List (Option Policy) × List Byte)
  | [], bs => some ([], bs)
  | n :: more, b :: bs => do
    let p ← if mask.getLsbD n then (([Policy.auto, .manual])[b.toNat]?).map some else some none
    let (ps, bs) ← readPolicies mask more bs
    some (p :: ps, bs)
  | _ :: _, [] => none

def rosterArgs (bs : List Byte) : Option RosterArgs :=
  match bs with
  | [] => none
  | mask :: bs => do
    let (policies, bs) ← readPolicies mask allLinks bs
    let (minSteps, bs) ← readOpt read8 bs
    let (limitMs, _) ← readOpt read16 bs
    some { policies := policies, minSteps := minSteps, limitMs := limitMs }

/-- The lines by their codes (Table 11.4 (1)). -/
inductive LineName where
  | present | swapreq | ready | trig | trigin | trigout | attn
  deriving DecidableEq, Repr

def lineCodes : List LineName := [.present, .swapreq, .ready, .trig, .trigin, .trigout, .attn]

/-- The line belongs to the index and is not ATTN: PRESENT, SWAPREQ, READY and TRIG to 0-5, TRIGIN and TRIGOUT to 6
(Table 4.1 (1), R69, R70). -/
def lineBelongs (i : Nat) (l : LineName) : Bool :=
  match l with
  | .present => decide (i ≤ 5)
  | .swapreq => decide (i ≤ 5)
  | .ready => decide (i ≤ 5)
  | .trig => decide (i ≤ 5)
  | .trigin => decide (i = 6)
  | .trigout => decide (i = 6)
  | .attn => false

/-- LINE_WRITE after the index: line and value, 0 or 1 (R69). -/
def lineWriteArgs (i : Nat) (bs : List Byte) : Option (LineName × Bool) := do
  let (l, bs) ← readCode lineCodes bs
  let (v, _) ← readCode [false, true] bs
  if lineBelongs i l then some (l, v) else none

/-- LINE_MODE after the index: line, mode, and a direction for TRIG only (R70). -/
def lineModeArgs (i : Nat) (bs : List Byte) : Option (LineName × LineMode × Option TrigDir) := do
  let (l, bs) ← readCode lineCodes bs
  let (m, bs) ← readCode [LineMode.function, .direct] bs
  let (d, _) ← readOpt (readCode [TrigDir.input, .output]) bs
  if lineBelongs i l ∧ (d.isNone ∨ l = .trig) then some (l, m, d) else none

/-- LINE_HOLD PRELOAD after the index: operation, READY level, TRIG drive (R71). -/
def holdArgs (bs : List Byte) : Option (Bool × TrigDrive) := do
  let (_, bs) ← readCode [()] bs
  let (ready, bs) ← readCode [true, false] bs
  let (trig, _) ← readCode [TrigDrive.drivenLow, .drivenHigh, .released] bs
  some (ready, trig)

/-- TIME_SOURCE: each of the links 0 to 5 exactly once (R99). -/
def priorityArg (bs : List Byte) : Option (List Link) := do
  let (a, bs) ← readLink bs
  let (b, bs) ← readLink bs
  let (c, bs) ← readLink bs
  let (d, bs) ← readLink bs
  let (e, bs) ← readLink bs
  let (f, _) ← readLink bs
  if [a, b, c, d, e, f].Nodup then some [a, b, c, d, e, f] else none

/-- TIME_CONFIG: five optional settings (R100). -/
structure TimeArgs where
  k : Option Nat
  window : Option Nat
  stepThreshold : Option Nat
  holdoverLimit : Option Nat
  freeTrim : Option Int
  deriving DecidableEq, Repr

def timeArgs (bs : List Byte) : Option TimeArgs := do
  let (k, bs) ← readOpt read8 bs
  let (window, bs) ← readOpt read16 bs
  let (stepThreshold, bs) ← readOpt read32 bs
  let (holdoverLimit, bs) ← readOpt read16 bs
  let (freeTrim, _) ← readOpt readInt32 bs
  some { k := k, window := window, stepThreshold := stepThreshold, holdoverLimit := holdoverLimit,
         freeTrim := freeTrim }

/-- The capture sources by their codes: 00H-05H for LINK 0-5, 06H for PANEL (Table 11.4 (1)). -/
def captureSourceCodes : List CaptureSource :=
  [.link 0, .link 1, .link 2, .link 3, .link 4, .link 5, .panel]

/-- The fields of a trigger entry to be armed (R119). -/
structure ArmArgs where
  mode : TrigMode
  compare : Time
  source : Option CaptureSource
  delay : Option Nat
  period : Nat
  repeats : Nat
  targets : TargetSet
  code : BitVec 4
  deriving DecidableEq, Repr

/-- TRIG_ARM after the index, checked against the LEAD in force (Table 7.3 (1), check 3). The compare time is not read
for ON_CAPTURE, and the capture source and delay are not read for AT_TIME (Table 11.4 (1)). -/
def armArgs (lead : Nat) (bs : List Byte) : Option ArmArgs := do
  let (mode, bs) ← readCode [TrigMode.atTime, .onCapture] bs
  let (compare, bs) ← read64 bs
  let (source, bs) ← read8 bs
  let (delay, bs) ← read64 bs
  let (period, bs) ← read64 bs
  let (repeats, bs) ← read16 bs
  let (targets, bs) ← read8 bs
  let (code, _) ← read8 bs
  if code ≤ 15 ∧ targets ≠ 0 ∧ targets ≤ 127 ∧ (period = 0 ∨ (lead + 1000 ≤ period ∧ period ≤ periodMax)) then
    match mode with
    | .atTime =>
      some { mode := .atTime, compare := BitVec.ofNat 64 compare, source := none, delay := none, period := period,
             repeats := repeats, targets := BitVec.ofNat 7 targets, code := BitVec.ofNat 4 code }
    | .onCapture => do
      let src ← captureSourceCodes[source]?
      if lead ≤ delay ∧ delay ≤ delayMax ∧ period = 0 then
        some { mode := .onCapture, compare := 0, source := some src, delay := some delay, period := 0,
               repeats := repeats, targets := BitVec.ofNat 7 targets, code := BitVec.ofNat 4 code }
      else none
  else none

/-- ROUTE_SET (R138, check 2). -/
def routeArgs (bs : List Byte) : Option RouteSpec := do
  let (stream, bs) ← read16 bs
  let (source, bs) ← readLink bs
  let (egress, bs) ← read8 bs
  let (kind, bs) ← readCode [RouteKind.static, .dynamic] bs
  let (cls, bs) ← readCode [RouteClass.normal, .expedite] bs
  let (gate, _) ← readOpt (fun bs => do
    let (start, bs) ← read64 bs
    let (stop, bs) ← read64 bs
    some ((start, stop), bs)) bs
  let set : LinkSet := BitVec.ofNat 6 egress
  if 1 ≤ stream ∧ stream ≤ 4095 ∧ egress ≤ 63 ∧ ¬ set.getLsbD source ∧ (∀ g ∈ gate, g.1 < g.2) then
    some { stream := BitVec.ofNat 12 stream, source := source, egress := set, kind := kind, cls := cls,
           gate := gate.map fun g => { start := BitVec.ofNat 64 g.1, stop := BitVec.ofNat 64 g.2 } }
  else none

/-- STREAM_CONFIG: four optional settings (R149). -/
structure StreamArgs where
  aging : Option Nat
  high : Option Nat
  low : Option Nat
  hold : Option Nat
  deriving DecidableEq, Repr

def streamArgs (bs : List Byte) : Option StreamArgs := do
  let (aging, bs) ← readOpt read8 bs
  let (high, bs) ← readOpt read8 bs
  let (low, bs) ← readOpt read8 bs
  let (hold, _) ← readOpt read16 bs
  some { aging := aging, high := high, low := low, hold := hold }

/-- The spaces by their codes (Table 11.4 (1)). -/
def spaceCodes : List Space :=
  [.link, .roster, .route, .trigger, .capture, .timebase, .lines, .counters, .all]

/-- ACCESS_SET WRITE after the entry and the operation: space, indices within it with the first not above the last, and
sets of F0 to F5 (R172). ALL takes in every space and has no bound of its own, so no index lies outside it (DEDUCED, log
27). -/
def accessArgs (bs : List Byte) : Option AccessEntry := do
  let (_, bs) ← readCode [()] bs
  let (space, bs) ← readCode spaceCodes bs
  let (first, bs) ← read8 bs
  let (last, bs) ← read8 bs
  let (read, bs) ← read8 bs
  let (modify, _) ← read8 bs
  if first ≤ last ∧ (space = .all ∨ last ≤ spaceMax space) ∧ read ≤ 63 ∧ modify ≤ 63 then
    some { space := space, first := first, last := last, read := BitVec.ofNat 6 read,
           modify := BitVec.ofNat 6 modify }
  else none

/-- An index byte within a table of `k` entries. -/
def indexArg (k : Nat) (bs : List Byte) : Option (Fin k) :=
  match bs with
  | b :: _ => if h : b.toNat < k then some ⟨b.toNat, h⟩ else none
  | [] => none

end Sys2Proof.Machine
end

