-- ==== Sys2Proof/Machine/Results.lean ====
section
/-! DEFINITION. The result bytes of responses: the encodings of R185 and the results that each kind's own rule lists, in
its order. Where R185 does not settle an encoding, the choice is in log 15. -/

namespace Sys2Proof.Machine

/-! ### Fields (R185) -/

/-- Unsigned fields of one, two, four and eight bytes. -/
def enc8 (x : Nat) : List Byte := [BitVec.ofNat 8 x]
def enc16 (x : Nat) : List Byte := be16 (BitVec.ofNat 16 x)
def enc32 (x : Nat) : List Byte := be32 (BitVec.ofNat 32 x)
def enc64 (x : Nat) : List Byte := be64 (BitVec.ofNat 64 x)

/-- Signed fields, in two's complement. -/
def encInt32 (x : Int) : List Byte := be32 (BitVec.ofInt 32 x)
def encInt64 (x : Int) : List Byte := be64 (BitVec.ofInt 64 x)

/-- A value that may be absent: a presence byte, 00H or 01H, and the value when it is 01H. -/
def encOpt {α : Type} (enc : α → List Byte) : Option α → List Byte
  | none => [0x00]
  | some a => 0x01 :: enc a

/-- A "whether ..." result, whose code R185 does not give (log 4). -/
def encWhether (b : Bool) : List Byte := [Config.whetherCode b]

/-- "set or clear": set is listed first. -/
def encFlag (b : Bool) : List Byte := [if b then 0x00 else 0x01]

/-- "yes or no": yes is listed first. -/
def encYes (b : Bool) : List Byte := [if b then 0x00 else 0x01]

/-- "ON or OFF": ON is listed first. -/
def encOn (b : Bool) : List Byte := [if b then 0x00 else 0x01]

/-- "high or low", of roster presence (R36): high is listed first. -/
def encHigh (b : Bool) : List Byte := [if b then 0x00 else 0x01]

/-- A latch, or the level at a pin: 0 or 1, where 1 is the high level (R62). -/
def encLevel (b : Bool) : List Byte := [if b then 0x01 else 0x00]

/-- Elapsed and remaining times in us, four bytes; the rounding of a broken microsecond is free (log 5). -/
def encMicros (ns : Nat) : List Byte :=
  let us := ns / microsecondNs
  enc32 (if ns % microsecondNs = 0 then us else if Config.microsecondRoundsUp ns then us + 1 else us)

/-- Sets, one byte each. -/
def encLinks (x : LinkSet) : List Byte := [x.setWidth 8]
/-- R185 gives no encoding for a set of lanes; that the active lane set is one byte with bit n for lane n, as the sets of
links are written, is the model's choice (DEDUCED, log 15). -/
def encLanes (x : LaneSet) : List Byte := [x.setWidth 8]
def encTargets (x : TargetSet) : List Byte := [x.setWidth 8]
def encNotices (x : NoticeSet) : List Byte := [x.setWidth 8]

/-! ### Values named from a list (R185): their places in the defining table or rule -/

def Status.code : Status → Byte
  | .ok => 0x00 | .accepted => 0x01 | .clamped => 0x02 | .noAccessClear => 0x03
  | .busy => 0x10 | .noAccess => 0x11 | .badArg => 0x12 | .notFound => 0x13
  | .full => 0x14 | .notReady => 0x15 | .state => 0x16 | .badKind => 0x17

/-- Table 1.1 (1). -/
def LinkState.code : LinkState → Byte
  | .off => 0 | .down => 1 | .training => 2 | .up => 3 | .recovery => 4

/-- Table 2.1 (1): RCP, F0 to F5, ADMISSION. -/
def requesterCode : Requester → Byte
  | .rcp => 0
  | .frame n => BitVec.ofNat 8 (1 + n.val)

def Starter.code : Starter → Byte
  | .request rq => requesterCode rq
  | .admission => 7

def ProbeKind.code : ProbeKind → Byte
  | .timing => 0 | .level => 1

def ProbeDirection.code : ProbeDirection → Byte
  | .plus => 0 | .minus => 1

/-- Table 2.3 (1). -/
def ProbeOutcome.code : ProbeOutcome → Byte
  | .none => 0 | .done => 1 | .abortLink => 2 | .abortSwap => 3 | .abortRequest => 4

/-- Table 3.1 (1). -/
def RosterState.code : RosterState → Byte
  | .empty => 0 | .detected => 1 | .probing => 2 | .identifying => 3 | .pending => 4
  | .active => 5 | .draining => 6 | .quiesced => 7 | .faulted => 8

def Cause.code : Cause → Byte
  | .none => 0 | .presence => 1 | .link => 2 | .margin => 3 | .noident => 4 | .mismatch => 5
  | .evicted => 6 | .drainForced => 7

def Policy.code : Policy → Byte
  | .auto => 0 | .manual => 1

def LineMode.code : LineMode → Byte
  | .function => 0 | .direct => 1

def TrigDir.code : TrigDir → Byte
  | .input => 0 | .output => 1

def TrigDrive.code : TrigDrive → Byte
  | .drivenLow => 0 | .drivenHigh => 1 | .released => 2

def LaneHold.code : LaneHold → Byte
  | .quiet => 0

/-- Table 5.2 (1). -/
def TimebaseState.code : TimebaseState → Byte
  | .freerun => 0 | .acquiring => 1 | .locked => 2 | .holdover => 3

/-- Table 5.2 (1): INTERNAL, LINK 0 to 5, NONE. -/
def Source.code : Source → Byte
  | .internal => 0
  | .link n => BitVec.ofNat 8 (1 + n.val)
  | .none => 7

/-- Table 6.1 (1). -/
def FollowerState.code : FollowerState → Byte
  | .untimed => 0 | .settling => 1 | .timed => 2

/-- R103. -/
def SyncRole.code : SyncRole → Byte
  | .source => 0 | .follower => 1 | .notEligible => 2

/-- Table 7.1 (1). -/
def TrigState.code : TrigState → Byte
  | .free => 0 | .waiting => 1 | .armed => 2 | .done => 3

def TrigMode.code : TrigMode → Byte
  | .atTime => 0 | .onCapture => 1

def TrigOutcome.code : TrigOutcome → Byte
  | .none => 0 | .fired => 1 | .late => 2 | .skipped => 3 | .cancelledRequest => 4 | .cancelledSwap => 5

/-- RCP, F0 to F5, NONE (Tables 7.1 (1) and 8.1 (1)). -/
def ownerCode : Option Requester → Byte
  | some rq => requesterCode rq
  | none => 7

/-- The capture source of a trigger entry, by the codes of Table 11.4 (1). -/
def CaptureSource.argCode : CaptureSource → Byte
  | .link n => BitVec.ofNat 8 n.val
  | .panel => 6

/-- The source of a capture, in the order of Table 7.10 (1): PANEL, LINK 0 to 5. -/
def CaptureSource.code : CaptureSource → Byte
  | .panel => 0
  | .link n => BitVec.ofNat 8 (1 + n.val)

/-- Table 7.10 (1): TRIGIN, TRIG LINE 0 to 5, TRIGGER CELL 0 to 5. -/
def CaptureOrigin.code : CaptureOrigin → Byte
  | .trigin => 0
  | .trigLine n => BitVec.ofNat 8 (1 + n.val)
  | .triggerCell n => BitVec.ofNat 8 (7 + n.val)

def RouteKind.code : RouteKind → Byte
  | .static => 0 | .dynamic => 1

def RouteClass.code : RouteClass → Byte
  | .normal => 0 | .expedite => 1

def Space.code : Space → Byte
  | .link => 0 | .roster => 1 | .route => 2 | .trigger => 3 | .capture => 4 | .timebase => 5
  | .lines => 6 | .counters => 7 | .all => 8

/-! ### Links and margin -/

/-- LINK_READ (R16). -/
def linkReadResults (s : State) (n : Link) : List Byte :=
  let p := s.port n
  [p.state.code] ++ encOn p.enabled ++ encWhether (held s n) ++ encLanes p.lanes ++ enc8 p.failCount
    ++ encWhether (retryBarred p) ++ enc8 p.errRun ++ encLevel (s.line n).presentPin

/-- The result record (Table 2.3 (1)). -/
def marginRecord (r : MarginResult) : List Byte :=
  encOpt (fun x => [x.code]) r.starter ++ encOpt (fun x : Lane => enc8 x.val) r.lane
    ++ encOpt (fun x => [x.code]) r.kind ++ encOpt (fun x => [x.code]) r.direction
    ++ encOpt enc8 r.stepLimit ++ encOpt enc8 r.errorLimit
    ++ enc8 r.steps ++ enc8 r.errors ++ [r.outcome.code]

/-- The probe record (Table 2.1 (1)) and the current step. -/
def probeRecord (p : Probe) : List Byte :=
  [p.starter.code] ++ enc8 p.lane.val ++ [p.kind.code] ++ [p.direction.code] ++ enc8 p.stepLimit ++ enc8 p.errorLimit
    ++ enc8 p.step

/-- MARGIN_RESULT (R30). -/
def marginResultResults (s : State) (n : Link) : List Byte :=
  let m := s.margin n
  marginRecord m.result ++ encWhether m.probe.isSome ++ encOpt probeRecord m.probe

/-! ### Roster -/

/-- A frame identity record (3.1). -/
def identityRecord (i : Identity) : List Byte := be64 i.serial ++ enc8 i.cls ++ enc8 i.grade ++ enc8 i.slots

/-- The time left until an oscillator moment. -/
def timeLeft (s : State) (ends : Nat) : List Byte := encMicros (ends - s.osc)

/-- ROSTER_READ (R54). -/
def rosterReadResults (s : State) (n : Link) : List Byte :=
  let e := s.entry n
  [e.state.code] ++ encOpt identityRecord e.identity ++ be16 e.epoch ++ encOpt be64 e.admittedAt
    ++ [e.lastCause.code] ++ [e.policy.code] ++ encFlag e.swapPending ++ encHigh e.presence
    ++ encOpt (timeLeft s) (if e.state = .identifying then e.identWait else none)
    ++ encOpt (timeLeft s) (if e.state = .draining then e.drainEnds else none)
    ++ enc8 s.admitMinSteps ++ enc16 s.drainLimitMs

/-! ### Lines -/

/-- A line without direction or hold: mode, latch, value (R68). -/
def lineResult (l : LineSetting) (value : Bool) : List Byte := [l.mode.code] ++ encLevel l.latch ++ encLevel value

/-- The hold record (Table 4.6 (1)). -/
def holdRecordResult (h : HoldRecord) : List Byte := encOn h.ready ++ [h.trig.code] ++ [h.lanes.code]

/-- LINE_READ of a link's lines (R68). -/
def linkLinesResult (s : State) (n : Link) : List Byte :=
  let l := s.line n
  lineResult l.present l.presentPin
    ++ lineResult l.swapreq l.swapreqPin
    ++ lineResult l.ready (readyLevel s n) ++ encWhether (held s n)
    ++ [l.trig.mode.code] ++ [l.trigDir.code] ++ encLevel l.trig.latch ++ encLevel (trigLevel s n)
    ++ encWhether (held s n)
    ++ holdRecordResult l.hold

/-- LINE_READ of the panel lines: ATTN has a value only (R68). -/
def panelLinesResult (s : State) : List Byte :=
  lineResult s.panel.trigin s.panel.triginPin ++ lineResult s.panel.trigout (trigoutLevel s) ++ encLevel (attnLevel s)

/-! ### Time -/

/-- The timing of one link in TIME_READ (R98). -/
def linkTimeResult (s : State) (n : Link) : List Byte :=
  encOpt enc16 (s.sync n).delay ++ enc8 (reportedGrade s n) ++ encWhether (candidate s n) ++ [(s.sync n).follower.code]

/-- TIME_READ (R98). -/
def timeReadResults (s : State) : List Byte :=
  let t := s.tb
  be64 s.rack ++ [t.state.code] ++ [t.source.code] ++ [if t.permitUsed then 0x01 else 0x00]
    ++ encInt32 t.trim ++ encInt32 t.integ
    ++ enc8 t.good ++ enc8 t.bad ++ enc8 t.missing
    ++ encOpt (fun since => encMicros (s.osc - since)) t.holdoverSince
    ++ t.priority.flatMap (fun n => enc8 n.val)
    ++ enc8 t.k ++ enc16 t.window ++ enc32 t.stepThreshold ++ enc16 t.holdoverLimit ++ encInt32 t.freeTrim
    ++ allLinks.flatMap (linkTimeResult s)

/-- The last delay shift (Table 6.1 (1)). -/
def shiftRecord (d : DelayShift) : List Byte := be64 d.moment ++ enc16 d.before ++ enc16 d.after

/-- SYNC_READ (R115). -/
def syncReadResults (s : State) (n : Link) : List Byte :=
  let l := s.sync n
  [(syncRole s n).code] ++ encOpt enc16 l.delay ++ enc8 l.shift ++ encOpt shiftRecord l.lastShift
    ++ enc8 (reportedGrade s n) ++ encOpt enc8 l.grade
    ++ be16 l.number ++ encWhether l.exchange.isSome ++ encOpt be64 (l.exchange.bind (·.t1))
    ++ [l.follower.code] ++ enc8 l.within ++ enc8 l.beyond ++ enc8 l.missing
    ++ encOpt encInt64 l.lastOffset

/-! ### Triggers and captures -/

/-- A pending pulse (Table 7.1 (1)). -/
def pulseRecord (p : PendingPulse) : List Byte := be64 p.compare ++ encYes p.panel ++ encLinks p.links

/-- The send time of an ARMED entry: its compare time less the LEAD in force (R118, R130). -/
def sendTime (s : State) (e : TrigEntry) : Time := fitTime ((e.compare.toNat : Int) - (s.lead : Int))

/-- TRIG_READ (R130). -/
def trigReadResults (s : State) (i : TrigIx) : List Byte :=
  let e := s.trig i
  [e.state.code] ++ [ownerCode e.owner] ++ [e.mode.code] ++ be64 e.compare ++ enc64 e.period ++ enc16 e.repeats
    ++ encOpt (fun x => [x.argCode]) e.source ++ encOpt enc64 e.delay ++ encTargets e.targets ++ [e.code.setWidth 8]
    ++ [e.outcome.code] ++ be16 e.fires ++ be16 e.skips ++ be16 e.missedTargets ++ be16 e.missedCaptures
    ++ encOpt pulseRecord e.pulse
    ++ encOpt be64 (if e.state = .armed then some (sendTime s e) else none)
    ++ enc32 s.lead

/-- A capture record (Table 7.10 (1)). -/
def captureRecord (c : Capture) : List Byte :=
  be16 c.number ++ [c.origin.code] ++ [c.source.code] ++ be64 c.time ++ encFlag c.uncompensated ++ encFlag c.unlocked
    ++ encOpt be64 c.intended ++ encOpt (fun x : BitVec 4 => [x.setWidth 8]) c.code

/-! ### Routes -/

/-- The fields of a valid route entry after "valid" (Table 8.1 (1)). -/
def routeFields (r : Route) : List Byte :=
  be16 (r.stream.setWidth 16) ++ enc8 r.source.val ++ encLinks r.egress ++ [r.kind.code] ++ [r.cls.code]
    ++ encOpt (fun g : Gate => be64 g.start ++ be64 g.stop) r.gate ++ encFlag r.used ++ [ownerCode r.owner]

/-- The index of the route write in progress; a sweep has none (log 19). -/
def activeIndex : ActiveWrite → Option RouteIx
  | .replace _ _ i => some i
  | .create _ _ i => some i
  | .clear _ i => some i
  | .sweep _ => none

/-- The index of a waiting write, where it is already known (R143). -/
def waitingIndex : WaitingWrite → Option RouteIx
  | .set _ _ => none
  | .clear _ i => some i
  | .sweep => none

/-- ROUTE_READ (R143). -/
def routeReadResults (s : State) (i : RouteIx) : List Byte :=
  encYes (s.route i).isSome ++ encOpt routeFields (s.route i)
    ++ encWhether (decide (s.writing.bind activeIndex = some i))
    ++ encWhether (s.waiting.any fun w => decide (waitingIndex w = some i))

/-- An entry found by ROUTE_FIRST or ROUTE_NEXT, with its index (R144). -/
def routeWalkResults (r : Route) (i : RouteIx) : List Byte := encYes true ++ routeFields r ++ enc8 i.val

/-! ### Access, counters, notices and status -/

/-- An access table entry that is not empty (R172). -/
def accessRecord (e : AccessEntry) : List Byte :=
  [e.space.code] ++ enc8 e.first ++ enc8 e.last ++ encLinks e.read ++ encLinks e.modify

/-- ACCESS_READ: all eight entries (R172). -/
def accessReadResults (s : State) : List Byte := s.access.toList.flatMap (encOpt accessRecord)

/-- COUNTER_READ of a link's set (R174). R185 orders the counters of a set as their defining table does; a link set has
two, and the model writes those of Table 1.9 (1) first and those of Table 9.6 (1) after them (DEDUCED, log 15). -/
def linkCounterResults (s : State) (n : Link) : List Byte := (s.counters[n]).toList.flatMap be32

/-- COUNTER_READ of the global set (R174). -/
def globalCounterResults (s : State) : List Byte := be32 s.initDrop ++ be32 s.captureOverflow

/-- NOTICE_READ: the pending set and the mask (R175). -/
def noticeReadResults (c : Client) : List Byte := encNotices c.news ++ encNotices c.mask

/-- HUB_STATUS (R178). -/
def hubStatusResults (s : State) : List Byte :=
  encFlag s.ready ++ [s.tb.state.code] ++ [s.tb.source.code]
    ++ s.roster.toList.map (·.state.code) ++ s.ports.toList.map (·.state.code)

end Sys2Proof.Machine
end

