-- ==== Sys2Proof/Machine/RequestOps.lean ====
section
/-! DEFINITION. The Request Unit's shared operations: the checks of R168, the in-progress flag of R169, and the two ways
out of a response (R170, R171); and the front end of every received cell (R7). -/

namespace Sys2Proof.Machine

/-- What a meaning answers: the KL6 has no fault and refuses no command. -/
abbrev Outcome := Host.Outcome State Fault Refusal

/-- How the block that owns the target answers a request handed to it: at once, or at the end of its operation. -/
inductive Reply where
  | now (status : Status) (endFlag : Bool) (results : List Byte)
  | later
  deriving DecidableEq, Repr

/-- OK with results. -/
def Reply.ok (results : List Byte) : Reply := .now .ok false results

/-- A status without results. -/
def Reply.of (status : Status) : Reply := .now status false []

/-- CLAMPED if a value was clamped, and OK otherwise. -/
def Reply.config (clamped : Bool) : Reply := .of (if clamped then .clamped else .ok)

/-- A value given for a setting is outside its range, so that its clamp changes it. -/
def outside {α : Type} [DecidableEq α] (clamp : α → α) (given : Option α) : Bool :=
  match given with
  | some x => decide (clamp x ≠ x)
  | none => false

/-- A response is written into the RCP response buffer, with PREV_UNREAD if it replaces an unread one (R170). -/
def RcpPort.write (p : RcpPort) (r : Response) : RcpPort :=
  { p with buffer := some { r with prevUnread := p.buffer.isSome && !p.readMark }, readMark := false }

/-- A read transaction is in progress (R170). -/
def RcpPort.reading (p : RcpPort) : Bool :=
  match p.framing with
  | .awaitingFall => false
  | .reading _ => true

/-- A response to this requester is held until the read transaction in progress ends (R170). -/
def State.holdsBack (s : State) (rq : Requester) : Bool := decide (rq = .rcp) && s.rcp.reading

/-- A response is written into the RCP response buffer, or held while a read transaction is in progress (R170); or it is
offered to the arbiter of link n, lost if refused (R171). -/
def respond (rq : Requester) (r : Response) (s : State) : State :=
  match rq with
  | .rcp => { s with rcp := if s.rcp.reading then { s.rcp with held := some r } else s.rcp.write r }
  | .frame n => offerCell n (.ctrl (.control { r with prevUnread := false })) s

/-- A response to request `tag` of kind `kind`. -/
def answer (rq : Requester) (tag kind : Byte) (status : Status) (endFlag : Bool) (results : List Byte) (s : State) :
    State :=
  respond rq
    { tag := tag, kind := kind, status := status, prevUnread := false, endFlag := endFlag, results := results } s

/-- The requester's in-progress flag. -/
def State.busy (s : State) (rq : Requester) : Bool := (s.client rq).busy

def setBusy (rq : Requester) (b : Bool) (s : State) : State := s.modClient rq fun c => { c with busy := b }

/-- The response of a request that has ended: it is sent and the flag cleared, but the flag of a response held by a read
transaction is cleared when that response is written; a request that the link-level reset has ended meanwhile, its flag
already clear, has no response (R14, R169, R170). -/
def endRequest (rq : Requester) (tag kind : Byte) (status : Status) (endFlag : Bool) (results : List Byte) (s : State) :
    State :=
  if s.busy rq then
    let t := answer rq tag kind status endFlag results s
    if s.holdsBack rq then t else setBusy rq false t
  else s

/-- The reserved-kind and roster-state checks of R168, steps 3 and 4. -/
def refusedKind (s : State) (rq : Requester) (kind : Byte) (clear : Bool) : Option Status :=
  match rq with
  | .rcp => none
  | .frame n =>
    if reservedKinds.contains kind then some .noAccess
    else if rosterAdmits (s.entry n).state kind clear then none
    else some .state

/-- A request that has arrived whole is taken (R168, R169). -/
def takeRequest (q : Request) (kind : Byte) (clear : Bool) (body : State → State × Reply) (s : State) : State :=
  if s.busy q.requester then answer q.requester q.tag kind .busy false [] s
  else
    match refusedKind s q.requester kind clear with
    | some status => answer q.requester q.tag kind status false [] s
    | none =>
      match body (setBusy q.requester true s) with
      | (s, .now status endFlag results) => endRequest q.requester q.tag kind status endFlag results s
      | (s, .later) => s

/-- A request of unknown kind (R168, step 2). -/
def takeUnknown (q : Request) (kind : Byte) (s : State) : State :=
  answer q.requester q.tag kind (if s.busy q.requester then .busy else .badKind) false [] s

/-- A cell of good CRC and an accepted kind arrives on link `n`: counted and handed on in UP only (R7). -/
def receive (n : Link) (handOn : State → State) (s : State) : State :=
  if (s.port n).state = .up then
    handOn ((s.count n .cellsIn).modPort n fun p => { p with errRun := 0 })
  else s

/-- A request arrives: at the end of its SPI transaction, or in a CONTROL cell of link n (R168, R171). No SPI transaction
can be made within another (log 10). -/
def arrive (q : Request) (take : State → State) (s : State) : State :=
  match q.requester with
  | .rcp => if s.rcp.reading then s else take s
  | .frame n => receive n take s

/-- A request of a known kind arrives and is taken. -/
def serve (kind : Byte) (clear : Bool) (q : Request) (body : State → State × Reply) (s : State) : State :=
  arrive q (takeRequest q kind clear body) s

/-! ### The checks that the chapters share -/

/-- The state is left as it was, with a status. -/
def refuse (status : Status) (s : State) : State × Reply := (s, .of status)

/-- The link number, then the access check, of the requests that name a link (1.8, 2.5, 3.10). That a missing link byte
fails before the access check and missing later bytes after it is the model's choice (DEDUCED, log 20). -/
def onLink (q : Request) (allowed : State → Requester → Space → Nat → Bool) (sp : Space)
    (body : Link → List Byte → State → State × Reply) (s : State) : State × Reply :=
  match readLink q.args with
  | none => refuse .badArg s
  | some (n, rest) => if allowed s q.requester sp n.val then body n rest s else refuse .noAccess s

/-- The index and the access check of the line requests (4.5). That a missing index byte fails before the access check
and missing later bytes after it is the model's choice (DEDUCED, log 20). -/
def onLines (q : Request) (allowed : State → Requester → Space → Nat → Bool)
    (body : Fin 7 → List Byte → State → State × Reply) (s : State) : State × Reply :=
  match indexArg 7 q.args with
  | none => refuse .badArg s
  | some i => if allowed s q.requester .lines i.val then body i (q.args.drop 1) s else refuse .noAccess s

/-- The link of a LINES index, or the panel. -/
def lineLink (i : Fin 7) : Option Link := if h : i.val < 6 then some ⟨i.val, h⟩ else none

end Sys2Proof.Machine
end

