-- ==== Sys2Proof/Machine/LineCmds.lean ====
section
/-! DEFINITION. The meanings of the line commands: edges on TRIG and TRIGIN, the end of a pulse, and the line requests
(chapter 4). -/

namespace Sys2Proof.Machine

/-! ### Edges and pulses -/

/-- A rising edge on the TRIG pin of link `n` is captured: FUNCTION, INPUT, not held (R66). The edge is one of the level
driven from outside, not of the pin being let go (log 28). -/
def trigCaptured (s : State) (n : Link) : Bool :=
  decide ((s.line n).trig.mode = .function) && decide ((s.line n).trigDir = .input) && !held s n

/-- TRIG_EDGE (R66, R131). -/
def execTrigEdge (n : Link) (edge : Edge) (s : State) : Outcome :=
  .next (
    match edge with
    | .falling => s.modLine n fun l => { l with trigPin := false }
    | .rising =>
      let s := s.modLine n fun l => { l with trigPin := true }
      if trigCaptured s n then makeCapture (.trigLine n) (.link n) s.rack false none none s else s)

/-- TRIGIN_EDGE (R66, R131). -/
def execTriginEdge (edge : Edge) (s : State) : Outcome :=
  .next (
    match edge with
    | .falling => { s with panel := { s.panel with triginPin := false } }
    | .rising =>
      let s := { s with panel := { s.panel with triginPin := true } }
      match s.panel.trigin.mode with
      | .function => makeCapture .trigin .panel s.rack false none none s
      | .direct => s)

/-- PULSE_END (R65, R67): the pin returns low. -/
def execPulseEnd (line : PulseLine) (s : State) : Outcome :=
  .next (
    match line with
    | .trig n =>
      match (s.line n).pulse with
      | some t => endTrigPulse n (advanceTo t s)
      | none => s
    | .trigout =>
      match s.panel.trigoutPulse with
      | some t =>
        let s := advanceTo t s
        { s with panel := { s.panel with trigoutPulse := none } }
      | none => s)

/-! ### LINE_READ and LINE_WRITE -/

/-- R68. -/
def lineReadBody (q : Request) (s : State) : State × Reply :=
  onLines q mayRead (fun i _ s =>
    match lineLink i with
    | some n => (s, .ok (linkLinesResult s n))
    | none => (s, .ok (panelLinesResult s))) s

/-- LINE_READ (R68). -/
def execLineRead (q : Request) (s : State) : Outcome := .next (serve kindLineRead false q (lineReadBody q) s)

/-- Changes the mode and latch of a line of a link. -/
def modLinkSetting (l : LineName) (f : LineSetting → LineSetting) (x : LinkLines) : LinkLines :=
  match l with
  | .present => { x with present := f x.present }
  | .swapreq => { x with swapreq := f x.swapreq }
  | .ready => { x with ready := f x.ready }
  | .trig => { x with trig := f x.trig }
  | .trigin => x
  | .trigout => x
  | .attn => x

/-- Changes the mode and latch of a panel line. -/
def modPanelSetting (l : LineName) (f : LineSetting → LineSetting) (x : PanelLines) : PanelLines :=
  match l with
  | .trigin => { x with trigin := f x.trigin }
  | .trigout => { x with trigout := f x.trigout }
  | .present => x
  | .swapreq => x
  | .ready => x
  | .trig => x
  | .attn => x

/-- Changes the mode and latch of line `l` of index `i`. -/
def modSetting (i : Fin 7) (l : LineName) (f : LineSetting → LineSetting) (s : State) : State :=
  match lineLink i with
  | some n => s.modLine n (modLinkSetting l f)
  | none => { s with panel := modPanelSetting l f s.panel }

/-- R69. -/
def lineWriteBody (q : Request) (s : State) : State × Reply :=
  onLines q mayModify (fun i rest s =>
    match lineWriteArgs i.val rest with
    | none => refuse .badArg s
    | some (l, v) => (modSetting i l (fun x => { x with latch := v }) s, .of .ok)) s

/-- LINE_WRITE (R69). -/
def execLineWrite (q : Request) (s : State) : Outcome := .next (serve kindLineWrite false q (lineWriteBody q) s)

/-! ### LINE_MODE (R70) -/

/-- TRIG takes a mode and a direction; a pulse in progress ends if either changes (R65, R70). -/
def setTrigLine (m : LineMode) (d : Option TrigDir) (l : LinkLines) : LinkLines :=
  let dir := d.getD l.trigDir
  { l with
    trig := { l.trig with mode := m }
    trigDir := dir
    pulse := if l.trig.mode = m ∧ l.trigDir = dir then l.pulse else none }

/-- PRESENT takes a mode; a return to FUNCTION makes the comparison of R36. -/
def setPresentMode (n : Link) (m : LineMode) (s : State) : State :=
  let old := (s.line n).present.mode
  let s := s.modLine n fun l => { l with present := { l.present with mode := m } }
  if old = .direct ∧ m = .function then samplePresence n s else s

/-- The new settings of a line of link `n` take effect at once (R70). No capture is made, not even where the KL6 drove
TRIG low against a high level from outside and lets go of it as FUNCTION INPUT, so that the pin rises: R66 speaks only of
a pin that was already high. DESIGN CHOICE (log 28). -/
def setLinkLine (n : Link) (l : LineName) (m : LineMode) (d : Option TrigDir) (s : State) : State :=
  match l with
  | .present => setPresentMode n m s
  | .swapreq => s.modLine n (modLinkSetting .swapreq fun x => { x with mode := m })
  | .ready => s.modLine n (modLinkSetting .ready fun x => { x with mode := m })
  | .trig => s.modLine n (setTrigLine m d)
  | .trigin => s
  | .trigout => s
  | .attn => s

/-- The new mode of a panel line takes effect at once; a change of mode ends a TRIGOUT pulse (R67, R70). -/
def setPanelLine (l : LineName) (m : LineMode) (p : PanelLines) : PanelLines :=
  match l with
  | .trigin => { p with trigin := { p.trigin with mode := m } }
  | .trigout =>
    { p with
      trigout := { p.trigout with mode := m }
      trigoutPulse := if p.trigout.mode = m then p.trigoutPulse else none }
  | .present => p
  | .swapreq => p
  | .ready => p
  | .trig => p
  | .attn => p

/-- R70. -/
def lineModeBody (q : Request) (s : State) : State × Reply :=
  onLines q mayModify (fun i rest s =>
    match lineModeArgs i.val rest with
    | none => refuse .badArg s
    | some (l, m, d) =>
      match lineLink i with
      | some n => (setLinkLine n l m d s, .of .ok)
      | none => ({ s with panel := setPanelLine l m s.panel }, .of .ok)) s

/-- LINE_MODE (R70). -/
def execLineMode (q : Request) (s : State) : Outcome := .next (serve kindLineMode false q (lineModeBody q) s)

/-! ### LINE_HOLD (R71, R72) -/

/-- R71: index 6 and unknown values fail the argument check, QUIESCED the state check. -/
def lineHoldPreloadBody (q : Request) (s : State) : State × Reply :=
  onLines q mayModify (fun i rest s =>
    match lineLink i, holdArgs rest with
    | some n, some (ready, trig) =>
      if held s n then refuse .state s
      else (s.modLine n fun l => { l with hold := { l.hold with ready := ready, trig := trig } }, .of .ok)
    | _, _ => refuse .badArg s) s

/-- LINE_HOLD PRELOAD (R71). -/
def execLineHoldPreload (q : Request) (s : State) : Outcome :=
  .next (serve kindLineHold false q (lineHoldPreloadBody q) s)

/-- The TRIG drive that keeps what is driven now (R72). -/
def sampledDrive (driven : Option Bool) : TrigDrive :=
  match driven with
  | none => .released
  | some true => .drivenHigh
  | some false => .drivenLow

/-- R72. -/
def lineHoldSampleBody (q : Request) (s : State) : State × Reply :=
  onLines q mayModify (fun i _ s =>
    match lineLink i with
    | none => refuse .badArg s
    | some n =>
      if held s n then refuse .state s
      else
        let ready := readyLevel s n
        let trig := sampledDrive (trigDriven s n)
        (s.modLine n fun l => { l with hold := { l.hold with ready := ready, trig := trig } }, .of .ok)) s

/-- LINE_HOLD SAMPLE (R72). -/
def execLineHoldSample (q : Request) (s : State) : Outcome :=
  .next (serve kindLineHold false q (lineHoldSampleBody q) s)

end Sys2Proof.Machine
end

