-- ==== Sys2Proof/Machine/LinkCmds.lean ====
section
/-! DEFINITION. The meanings of the link commands: training, recovery, received cells that no other block takes,
completed transmissions, and the link requests (chapter 1). -/

namespace Sys2Proof.Machine

/-! ### Training (R2 to R4) -/

/-- TRAINING_ACTIVITY (R2). -/
def execTrainingActivity (n : Link) (seen : Bool) (s : State) : Outcome :=
  .next (tryTrain n (s.modPort n fun p => { p with activity := seen }))

/-- TRAINING_ALL_ALIGNED (R3, R4). -/
def execTrainingAllAligned (n : Link) (s : State) : Outcome :=
  .next (if (s.port n).state = .training then portUp n (BitVec.allOnes 4) s else s)

/-- A training run that ends with an empty set (R4); the port trains again if the activity is still seen (R2). -/
def trainingFails (n : Link) (s : State) : State :=
  let s := s.modPort n fun p => { p with failCount := min (p.failCount + 1) failBar }
  tryTrain n (portDown n (s.count n .trainFails))

/-- TRAINING_LIMIT_EXPIRY (R4). -/
def execTrainingLimitExpiry (n : Link) (aligned : LaneSet) (s : State) : Outcome :=
  .next (
    if (s.port n).state = .training then
      let s := advanceTo ((s.port n).limit.getD s.osc) s
      if aligned = 0 then trainingFails n s else portUp n aligned s
    else s)

/-! ### Recovery (R9, R10) -/

/-- ALIGNMENT_LOST (R9): only a lane of the active lane set of an UP port counts. -/
def execAlignmentLost (n : Link) (lane : Lane) (s : State) : Outcome :=
  .next (if (s.port n).state = .up ∧ (s.port n).lanes.getLsbD lane then enterRecovery n s else s)

/-- RECOVERY_ALL_ALIGNED (R10). -/
def execRecoveryAllAligned (n : Link) (s : State) : Outcome :=
  .next (if (s.port n).state = .recovery then recoverUp n (s.port n).lanes s else s)

/-- The recovery limit expires with the lanes `kept` of the active set aligned (R10). -/
def recoveryEnds (n : Link) (kept : LaneSet) (s : State) : State :=
  if kept = 0 then tryTrain n (portDown n s)
  else
    let dropped := (lanesOf (s.port n).lanes).length - (lanesOf kept).length
    recoverUp n kept (s.countBy n .laneDrops dropped)

/-- RECOVERY_LIMIT_EXPIRY (R10). -/
def execRecoveryLimitExpiry (n : Link) (aligned : LaneSet) (s : State) : Outcome :=
  .next (
    if (s.port n).state = .recovery then
      let s := advanceTo ((s.port n).limit.getD s.osc) s
      recoveryEnds n (aligned &&& (s.port n).lanes) s
    else s)

/-! ### Received cells (R7, R8, R183) -/

/-- A failing cell is a probe error: marked on the probed lane and on no other (R8). -/
def probeError (s : State) (n : Link) (marked : LaneSet) : Bool :=
  match (s.margin n).probe with
  | some p => decide (marked = laneSetOf [p.lane])
  | none => false

/-- An errored cell: counted, and at the fourth in succession the port passes to RECOVERY (R7, R8). -/
def erroredCell (n : Link) (s : State) : State :=
  let s := s.count n .cellErrors
  let run := (s.port n).errRun + 1
  if errorsToRecovery ≤ run then enterRecovery n (s.modPort n fun p => { p with errRun := 0 })
  else s.modPort n fun p => { p with errRun := run }

/-- CELL_ERRORED (R7, R8, R24). The symbol errors of a probe error are counted as they are found (SYMBOL_ERROR). -/
def execCellErrored (n : Link) (marked : LaneSet) (s : State) : Outcome :=
  .next (
    if (s.port n).state = .up then
      if probeError s n marked then s else erroredCell n s
    else s)

/-- UNKNOWN_KIND_CELL (R7). -/
def execUnknownKindCell (n : Link) (s : State) : Outcome :=
  .next (
    if (s.port n).state = .up then (s.count n .cellErrors).modPort n fun p => { p with errRun := 0 }
    else s)

/-- MALFORMED_CONTROL_CELL (R183): counted in CELLS_IN and discarded. -/
def execMalformedControlCell (n : Link) (_body : List Byte) (s : State) : Outcome := .next (receive n id s)

/-! ### Completed transmissions (R13, R157) -/

/-- The SYNC_REQ of the open exchange has left: t1 is taken and the reply limit starts (R77, R88). -/
def takeDeparture (n : Link) (number : BitVec 16) (s : State) : State :=
  match (s.sync n).exchange with
  | some x =>
    if x.number = number ∧ x.t1 = none then
      s.modSync n fun l =>
        { l with exchange := some { x with t1 := some s.rack, limit := some (s.osc + replyLimitNs) } }
    else s
  | none => s

/-- What the completion of a cell means to the block that offered it (R13). -/
def cellLeft (n : Link) (c : TxCell) (s : State) : State :=
  match c with
  | .sync (.req number) => takeDeparture n number s
  | .sync (.result _ _ _ _ _) => s
  | .trig _ => s
  | .hold _ => s
  | .ctrl _ => s

/-- CELL_TRANSMISSION_COMPLETE (R13, R157): the arbiter then chooses afresh (R12). -/
def execCellTransmissionComplete (n : Link) (s : State) : Outcome :=
  .next (
    match (s.port n).tx with
    | none => s
    | some (.cell c) =>
      let s := s.modPort n fun p => { p with tx := none, lastSent := some c }
      startNext n (cellLeft n c (s.count n .cellsOut))
    | some (.block i) =>
      let s := s.modPort n fun p => { p with tx := none }
      startNext n (drainTest n (releaseSlot i ((s.count n .cellsOut).count n .blocksOut))))

/-! ### Link requests (R16 to R18) -/

/-- R16. -/
def linkReadBody (q : Request) (s : State) : State × Reply :=
  onLink q mayRead .link (fun n _ s => (s, .ok (linkReadResults s n))) s

/-- LINK_READ (R16). -/
def execLinkRead (q : Request) (s : State) : Outcome := .next (serve kindLinkRead false q (linkReadBody q) s)

/-- The setting is stored and the port passes to OFF, or out of it (R1, R17). -/
def setEnable (n : Link) (on : Bool) (s : State) : State :=
  if (s.port n).enabled = on then s
  else
    let s := s.modPort n fun p => { p with enabled := on }
    if on then leaveOff n s else portOff n s

/-- R17: link, access, argument, state. -/
def linkEnableBody (q : Request) (s : State) : State × Reply :=
  onLink q mayModify .link (fun n rest s =>
    match settingArg rest with
    | none => refuse .badArg s
    | some on => if held s n then refuse .state s else (setEnable n on s, .of .ok)) s

/-- LINK_ENABLE (R17). -/
def execLinkEnable (q : Request) (s : State) : Outcome := .next (serve kindLinkEnable false q (linkEnableBody q) s)

/-- The effect of LINK_RETRAIN by link state (R18). -/
def retrain (n : Link) (s : State) : State × Reply :=
  match (s.port n).state with
  | .up => (beginTraining n (portDown n s), .of .ok)
  | .recovery => (beginTraining n (portDown n s), .of .ok)
  | .training => (beginTraining n s, .of .ok)
  | .down => (tryTrain n (s.modPort n fun p => { p with failCount := 0 }), .of .ok)
  | .off => refuse .state s

/-- R18. -/
def linkRetrainBody (q : Request) (s : State) : State × Reply :=
  onLink q mayModify .link (fun n _ s => retrain n s) s

/-- LINK_RETRAIN (R18). -/
def execLinkRetrain (q : Request) (s : State) : Outcome := .next (serve kindLinkRetrain false q (linkRetrainBody q) s)

end Sys2Proof.Machine
end

