-- ==== Sys2Proof/Machine/MarginCmds.lean ====
section
/-! DEFINITION. The meanings of the margin commands: dwells, symbol errors, and the Lane Margin Unit's requests
(chapter 2). -/

namespace Sys2Proof.Machine

/-- The admission sequence goes on with the PLUS probe of its next lane (R31). -/
def nextAdmissionLane (n : Link) (lane : Lane) (later : List Lane) (done : List LaneFigures) (s : State) : State :=
  s.modMargin n fun m => { m with
    probe := some (admissionProbe lane .plus s.osc)
    admission := some { later := later, plus := none, done := done } }

/-- The pass test at the end of the admission sequence (R32). -/
def passTest (n : Link) (figures : List LaneFigures) (s : State) : State :=
  let s := s.modMargin n fun m => { m with
    probe := none, admission := none, result := ((worstLane figures).map admissionResult).getD m.result }
  if somePass s.admitMinSteps figures then
    let failing := failingLanes s.admitMinSteps figures
    toIdentifying n (s.modPort n fun p => { p with lanes := p.lanes &&& ~~~failing })
  else toFaulted n .margin s

/-- A probe of the admission sequence completes with a figure (R31, R32). -/
def admissionGoesOn (n : Link) (p : Probe) (a : Admission) (f : Figure) (s : State) : State :=
  match a.plus with
  | none =>
    s.modMargin n fun m => { m with
      probe := some (admissionProbe p.lane .minus s.osc), admission := some { a with plus := some f } }
  | some plus =>
    let done := a.done ++ [{ lane := p.lane, plus := plus, minus := f }]
    match a.later with
    | lane :: later => nextAdmissionLane n lane later done s
    | [] => passTest n done s

/-- The probe `p` of link `n` completes by R23. -/
def probeCompletes (n : Link) (p : Probe) (steps : Nat) (s : State) : State :=
  match p.starter with
  | .request rq => endRequested n rq p steps .done s
  | .admission =>
    match (s.margin n).admission with
    | some a => admissionGoesOn n p a { steps := steps, errors := p.errors } s
    | none => s.modMargin n fun m => { m with probe := none }

/-- The dwell of probe `p` has ended (R23). R23 gives the move to the next step a small fraction of the dwell and no
length; that the model's next dwell begins at once and ends 1 ms later is a DESIGN CHOICE (log 2). -/
def dwellEnds (n : Link) (p : Probe) (s : State) : State :=
  if p.errorLimit < p.errors then probeCompletes n p (p.step - 1) s
  else if p.stepLimit ≤ p.step then probeCompletes n p p.step s
  else
    s.modMargin n fun m => { m with
      probe := some { p with lastWithin := p.step, step := p.step + 1, errors := 0, dwellEnds := s.osc + dwellNs } }

/-- DWELL_END (R23). -/
def execDwellEnd (n : Link) (s : State) : Outcome :=
  .next (
    match (s.margin n).probe with
    | some p => dwellEnds n p (advanceTo p.dwellEnds s)
    | none => s)

/-- A symbol error on the probed lane adds 1 to the dwell's count, up to 255 (R23, R24). -/
def countSymbol (lane : Lane) (p : Probe) : Probe :=
  if p.lane = lane then { p with errors := min (p.errors + 1) 255 } else p

/-- SYMBOL_ERROR (R24). -/
def execSymbolError (n : Link) (lane : Lane) (s : State) : Outcome :=
  .next (s.modMargin n fun m => { m with probe := m.probe.map (countSymbol lane) })

/-- Checks 3 to 6 of Table 2.5 (1), and the start of the probe (R22, R28). -/
def startProbe (rq : Requester) (n : Link) (rest : List Byte) (s : State) : State × Reply :=
  match probeArgs rest with
  | none => refuse .badArg s
  | some a =>
    if (s.margin n).probe.isSome then refuse .busy s
    else if (s.port n).state ≠ .up ∨ (s.port n).lanes.getLsbD a.lane = false then refuse .state s
    else if (s.entry n).state ≠ .pending ∧ (s.entry n).state ≠ .active then refuse .state s
    else
      (s.modMargin n fun m => { m with
        probe := some (newProbe (.request rq) a.lane a.kind a.direction a.stepLimit a.errorLimit s.osc) },
       .of .accepted)

/-- R28. -/
def linkMarginStartBody (q : Request) (s : State) : State × Reply :=
  onLink q mayModify .link (startProbe q.requester) s

/-- LINK_MARGIN START (R28). -/
def execLinkMarginStart (q : Request) (s : State) : Outcome :=
  .next (serve kindLinkMargin false q (linkMarginStartBody q) s)

/-- The cancel, by what is running on the link (R29). -/
def cancelProbe (n : Link) (s : State) : State × Reply :=
  match (s.margin n).probe with
  | some p =>
    match p.starter with
    | .request rq => (endRequested n rq p p.lastWithin .abortRequest s, .of .ok)
    | .admission => refuse .state s
  | none => refuse .notFound s

/-- R29. -/
def linkMarginCancelBody (q : Request) (s : State) : State × Reply :=
  onLink q mayModify .link (fun n _ s => cancelProbe n s) s

/-- LINK_MARGIN CANCEL (R29). -/
def execLinkMarginCancel (q : Request) (s : State) : Outcome :=
  .next (serve kindLinkMargin false q (linkMarginCancelBody q) s)

/-- R30. -/
def marginResultBody (q : Request) (s : State) : State × Reply :=
  onLink q mayRead .link (fun n _ s => (s, .ok (marginResultResults s n))) s

/-- MARGIN_RESULT (R30). -/
def execMarginResult (q : Request) (s : State) : Outcome :=
  .next (serve kindMarginResult false q (marginResultBody q) s)

end Sys2Proof.Machine
end

