-- ==== Sys2Proof/Machine/Wire.lean ====
section
/-! DEFINITION. What the KL6 sends, as bytes: cells with start-of-cell symbol, header, body and CRC (R181, R182),
response records (Table 11.3 (2)), the striping over lanes (R6) and the bytes of a read transaction (R184). -/

namespace Sys2Proof.Machine

/-! ### Response records -/

/-- A response record (Table 11.3 (2)): bit 0 of the flags is PREV_UNREAD, bit 1 is END. -/
def Response.bytes (r : Response) : List Byte :=
  [r.tag, r.kind, r.status.code,
   (if r.prevUnread then 0x01#8 else 0x00#8) ||| (if r.endFlag then 0x02#8 else 0x00#8)]
    ++ enc16 r.results.length ++ r.results

/-! ### Cells (R181, R182) -/

/-- The header of Table 11.1 (1), with every reserved bit 0. -/
def headerBytes (kind flags : Byte) (length : Nat) (stream sequence : BitVec 16) (stamp : Time) : List Byte :=
  [kind, flags] ++ enc16 length ++ be16 stream ++ be16 sequence ++ be64 stamp

/-- A whole cell: header, body and CRC. -/
def cellBytes (kind flags : Byte) (stream sequence : BitVec 16) (stamp : Time) (body : List Byte) : List Byte :=
  let covered := headerBytes kind flags body.length stream sequence stamp ++ body
  covered ++ crcBytes covered

/-- SYNC_REQ and SYNC_RESULT (Tables 11.1 (2) and 11.2 (1)). -/
def SyncCell.bytes : SyncCell → List Byte
  | .req number => cellBytes 0x10 0 0 number 0 []
  | .result number theta delay follower timebase =>
    cellBytes 0x12 0 0 number 0 (encInt64 theta ++ enc16 delay ++ [follower.code, timebase.code])

/-- TRIGGER: the stamp is the compare time, flag bit 1 is LATE. -/
def TrigCell.bytes (c : TrigCell) : List Byte :=
  cellBytes 0x20 (if c.late then 0x02 else 0x00) 0 0 c.compare [c.code.setWidth 8, BitVec.ofNat 8 c.index.val, 0, 0]

/-- HOLD and RESUME. -/
def HoldCell.bytes : HoldCell → List Byte
  | .hold stream time => cellBytes 0x30 0 (stream.setWidth 16) 0 0 (be16 time ++ [0, 0])
  | .resume stream => cellBytes 0x31 0 (stream.setWidth 16) 0 0 []

/-- CONTROL and NOTICE. -/
def CtrlCell.bytes : CtrlCell → List Byte
  | .control r => cellBytes 0x40 0 0 0 0 r.bytes
  | .notice set => cellBytes 0x41 0 0 0 0 [set.setWidth 8, 0, 0, 0]

/-- The bytes of a cell of the transmit arbiter. -/
def TxCell.bytes : TxCell → List Byte
  | .sync c => c.bytes
  | .trig c => c.bytes
  | .hold c => c.bytes
  | .ctrl c => c.bytes

/-- A sample block sent from a slot: flag bit 0 is TIMED (R157). -/
def Slot.bytes (sl : Slot) : List Byte :=
  cellBytes 0x01 (if sl.timed then 0x01 else 0x00) (sl.stream.setWidth 16) sl.sequence sl.stamp
    ([if sl.width then 0x01 else 0x00, 0] ++ enc16 sl.count ++ sl.payload)

/-- The bytes of the transmission in progress on link `n`. -/
def sendingBytes (s : State) (n : Link) : Option (List Byte) :=
  match (s.port n).tx with
  | some (.cell c) => some c.bytes
  | some (.block i) => (s.slot i).map Slot.bytes
  | none => none

/-- What the transmission in progress on link `n` puts on the cable (R181). -/
def sendingSymbols (s : State) (n : Link) : Option (List Symbol) := (sendingBytes s n).map cellSymbols

/-- The bytes lane `l` carries of a cell: the cell's bytes go to the lanes of the set in turn, starting at the
lowest-numbered (R6). -/
def laneBytes (lanes : LaneSet) (l : Lane) (bytes : List Byte) : List Byte :=
  let order := lanesOf lanes
  (bytes.zipIdx.filter fun b => decide (order[b.2 % order.length]? = some l)).map (·.1)

/-- What lane `l` carries of a cell: the start-of-cell symbol stands before byte 0, on the lane that carries byte 0, which
is the lowest-numbered of the set (R6, R181; DEDUCED, log 29). -/
def laneSymbols (lanes : LaneSet) (l : Lane) (bytes : List Byte) : List Symbol :=
  (if (lanesOf lanes).head? = some l then [.startOfCell] else []) ++ (laneBytes lanes l bytes).map .data

/-! ### The read transaction (R170, R184) -/

/-- The status byte: bit 0 a request in progress, bit 1 a response held, bit 2 the held response has been read. -/
def spiStatus (s : State) : Byte :=
  (if (s.client .rcp).busy then 0x01#8 else 0x00#8)
    ||| (if s.rcp.buffer.isSome then 0x02#8 else 0x00#8)
    ||| (if s.rcp.buffer.isSome && s.rcp.readMark then 0x04#8 else 0x00#8)

/-- Byte `i` of a read transaction that began with `status`: the status byte, then the buffered response record, then a
free value (log 6); 00H after the status byte where no response is held. -/
def spiByte (status : Byte) (p : RcpPort) (i : Nat) : Byte :=
  match i with
  | 0 => status
  | i + 1 =>
    match p.buffer with
    | none => 0x00
    | some r => (r.bytes[i]?).getD (Config.spiAfterRecord (i - r.bytes.length))

/-- The first `count` bytes of a read transaction. -/
def spiBytes (status : Byte) (p : RcpPort) (count : Nat) : List Byte := (List.range count).map (spiByte status p)

/-- The buffered response is shifted out whole by `count` bytes. -/
def shiftedWhole (p : RcpPort) (count : Nat) : Bool :=
  match p.buffer with
  | none => false
  | some r => decide (1 + r.bytes.length ≤ count)

/-- The port at the rise of chip select that ends a read transaction (R170): a response shifted out whole is marked read,
and one cut short keeps its mark. -/
def RcpPort.risen (p : RcpPort) (status : Byte) (count : Nat) : RcpPort :=
  { p with
    framing := .awaitingFall
    readMark := p.readMark || shiftedWhole p count
    shiftedOut := spiBytes status p count }

end Sys2Proof.Machine
end

