-- ==== Sys2Proof/Machine/RequestCmds.lean ====
section
/-! DEFINITION. The meanings of the Rack Controller Port's transactions and of the Request Unit's own requests
(chapter 10). -/

namespace Sys2Proof.Machine

/-! ### The port (R170, R184) -/

/-- Chip select falls for a read transaction: the status byte is taken. It cannot fall within one (log 10). -/
def beginRead (s : State) : State :=
  match s.rcp.framing with
  | .awaitingFall => { s with rcp := { s.rcp with framing := .reading (spiStatus s) } }
  | .reading _ => s

/-- Chip select rises at the end of a read transaction: after the read mark is settled, a response held during the
transaction is written into the buffer, and its request is no longer in progress (R169, R170). -/
def endRead (count : Nat) (s : State) : State :=
  match s.rcp.framing with
  | .awaitingFall => s
  | .reading status =>
    let p := s.rcp.risen status count
    match p.held with
    | none => { s with rcp := p }
    | some r => setBusy .rcp false { s with rcp := { p with held := none }.write r }

/-- RCP_READ_TRANSACTION (R170): a whole transaction is its beginning and its end with nothing between. Where one is
already in progress, no whole one can be made (log 10). -/
def execRcpReadTransaction (part : ReadPart) (s : State) : Outcome :=
  match part with
  | .whole count => .next (if s.rcp.reading then s else endRead count (beginRead s))
  | .begins => .next (beginRead s)
  | .ends count => .next (endRead count s)

/-- RCP_TRANSACTION_DISCARDED (R170): no request is taken and nothing changes. -/
def execRcpTransactionDiscarded (_bytes : List Byte) (s : State) : Outcome := .next s

/-- BADKIND (R168, step 2). -/
def execBadkind (q : Request) (kind : Byte) (s : State) : Outcome := .next (arrive q (takeUnknown q kind) s)

/-! ### The access table (R172) -/

/-- R172. -/
def accessSetWriteBody (q : Request) (s : State) : State × Reply :=
  match indexArg 8 q.args, accessArgs (q.args.drop 1) with
  | some i, some e => ({ s with access := s.access.set i (some e) }, .of .ok)
  | _, _ => refuse .badArg s

/-- ACCESS_SET WRITE (R172). -/
def execAccessSetWrite (q : Request) (s : State) : Outcome :=
  .next (serve kindAccessSet false q (accessSetWriteBody q) s)

/-- R172. -/
def accessSetEmptyBody (q : Request) (s : State) : State × Reply :=
  match indexArg 8 q.args with
  | some i => ({ s with access := s.access.set i none }, .of .ok)
  | none => refuse .badArg s

/-- ACCESS_SET EMPTY (R172). -/
def execAccessSetEmpty (q : Request) (s : State) : Outcome :=
  .next (serve kindAccessSet false q (accessSetEmptyBody q) s)

/-- ACCESS_READ (R172). -/
def execAccessRead (q : Request) (s : State) : Outcome :=
  .next (serve kindAccessRead false q (fun s => (s, .ok (accessReadResults s))) s)

/-! ### Counters (R174) -/

/-- The counters of a set: a link's, or the global ones at 6 (R174). -/
def counterSetResults (s : State) (i : Fin 7) : List Byte :=
  match lineLink i with
  | some n => linkCounterResults s n
  | none => globalCounterResults s

/-- Every counter of a set is set to 0 (R174). -/
def clearCounterSet (i : Fin 7) (s : State) : State :=
  match lineLink i with
  | some n => { s with counters := s.counters.set n (Vector.replicate 22 0) }
  | none => { s with initDrop := 0, captureOverflow := 0 }

/-- The set number and the clear option of a COUNTER_READ. R174 has no check of the option's byte; that a missing byte, or
one other than 00H or 01H, is answered BADARG before the access check is the model's choice (DEDUCED, log 20). -/
def counterArgs (bs : List Byte) : Option (Fin 7 × Bool) := do
  let i ← indexArg 7 bs
  let (clear, _) ← readCode [false, true] (bs.drop 1)
  some (i, clear)

/-- R174, without the clear option. -/
def counterReadBody (q : Request) (s : State) : State × Reply :=
  match counterArgs q.args with
  | none => refuse .badArg s
  | some (i, _) =>
    if mayRead s q.requester .counters i.val then (s, .ok (counterSetResults s i)) else refuse .noAccess s

/-- COUNTER_READ without the clear option (R174). -/
def execCounterRead (q : Request) (s : State) : Outcome := .next (serve kindCounterRead false q (counterReadBody q) s)

/-- R174, with the clear option. -/
def counterReadClearBody (q : Request) (s : State) : State × Reply :=
  match counterArgs q.args with
  | none => refuse .badArg s
  | some (i, _) =>
    if mayModify s q.requester .counters i.val then (clearCounterSet i s, .ok (counterSetResults s i))
    else if mayRead s q.requester .counters i.val then (s, .now .noAccessClear false (counterSetResults s i))
    else refuse .noAccess s

/-- COUNTER_READ with the clear option (R174). -/
def execCounterReadClear (q : Request) (s : State) : Outcome :=
  .next (serve kindCounterRead true q (counterReadClearBody q) s)

/-! ### Notices (R175, R176) -/

/-- The notice-outstanding flag of a frame requester is cleared; the RCP has none (R175). -/
def clearOutstanding (rq : Requester) (s : State) : State :=
  match rq with
  | .rcp => s
  | .frame n => s.setOutstanding n false

/-- R175. -/
def noticeReadBody (q : Request) (s : State) : State × Reply :=
  (clearOutstanding q.requester (s.modClient q.requester fun c => { c with news := 0 }),
   .ok (noticeReadResults (s.client q.requester)))

/-- NOTICE_READ (R175). -/
def execNoticeRead (q : Request) (s : State) : Outcome := .next (serve kindNoticeRead false q (noticeReadBody q) s)

/-- R175, R176: a mask with bit 7 set names an unknown kind; a kind already pending that the new mask admits is told. -/
def noticeMaskBody (q : Request) (s : State) : State × Reply :=
  match q.args with
  | [] => refuse .badArg s
  | m :: _ =>
    if m.getLsbD 7 then refuse .badArg s
    else
      (tell q.requester (BitVec.allOnes 7) (s.modClient q.requester fun c => { c with mask := m.setWidth 7 }), .of .ok)

/-- NOTICE_MASK (R175). -/
def execNoticeMask (q : Request) (s : State) : Outcome := .next (serve kindNoticeMask false q (noticeMaskBody q) s)

/-- HUB_STATUS (R178). -/
def execHubStatus (q : Request) (s : State) : Outcome :=
  .next (serve kindHubStatus false q (fun s => (s, .ok (hubStatusResults s))) s)

end Sys2Proof.Machine
end

