-- ==== Sys2Proof/Machine/RouteOps.lean ====
section
/-! DEFINITION. The table write unit's shared operations: joining the list, the decision of a write at its start, and
its completion (8.2, 8.3). -/

namespace Sys2Proof.Machine

/-! ### The list of waiting writes (R137, R138) -/

/-- The route indices in order. -/
def allRoutes : List RouteIx := List.finRange 64

/-- The set of the indices of ROUTE that the access table lets a requester modify now (R138). -/
def modifySet (s : State) (rq : Requester) : BitVec 64 :=
  allRoutes.foldl (fun a i => if mayModify s rq .route i.val then a ||| (1#64 <<< i.val) else a) 0#64

/-- A route write as it joins the list. -/
def newWrite (s : State) (q : Request) : WriteRequest :=
  { requester := q.requester, tag := q.tag, modify := modifySet s q.requester, orphaned := false, departed := false }

/-- A waiting write whose request was ended by the link-level reset of its requester's link (R137). -/
def orphanWaiting (rq : Requester) : WaitingWrite → Bool
  | .set w _ => w.orphaned && decide (w.requester = rq)
  | .clear w _ => w.orphaned && decide (w.requester = rq)
  | .sweep => false

/-- The same of the write in progress. -/
def orphanActive (rq : Requester) : ActiveWrite → Bool
  | .replace w _ _ => w.orphaned && decide (w.requester = rq)
  | .create w _ _ => w.orphaned && decide (w.requester = rq)
  | .clear w _ => w.orphaned && decide (w.requester = rq)
  | .sweep _ => false

/-- An orphaned write of the requester waits or runs (R137). -/
def orphanRuns (s : State) (rq : Requester) : Bool := s.waiting.any (orphanWaiting rq) || s.writing.any (orphanActive rq)

/-- A write joins the list last, on an idle unit too, where its start is a command of its own (log 30); its request stays
in progress (R137). -/
def joinWrites (w : WaitingWrite) (s : State) : State × Reply := ({ s with waiting := s.waiting ++ [w] }, .later)

/-! ### The decision at the start (R139, R141, R148) -/

/-- The valid entry of a stream: no valid entry has stream id 0 (R145). -/
def findRoute (s : State) (stream : StreamId) : Option RouteIx :=
  if stream = 0 then none
  else allRoutes.find? fun i => match s.route i with
    | some r => decide (r.stream = stream)
    | none => false

/-- The permission of a write on index `i`: the table's at the request's arrival, or ownership now (R138, R139,
R173). -/
def writeMay (w : WriteRequest) (s : State) (i : RouteIx) : Bool :=
  w.modify.getLsbD i.val || decide (routeOwner s i = some w.requester)

/-- The lowest invalid index that the requester may modify (R139). -/
def createIndex (w : WriteRequest) (s : State) : Option RouteIx :=
  allRoutes.find? fun i => (s.route i).isNone && w.modify.getLsbD i.val

/-- A route write's response; an orphaned write has none (R137). -/
def endWrite (w : WriteRequest) (kind : Byte) (status : Status) (results : List Byte) (s : State) : State :=
  if w.orphaned then s else endRequest w.requester w.tag kind status false results s

/-- A ROUTE_SET write starts: replace, create, or a refusal at once (R139). -/
def startSet (w : WriteRequest) (r : RouteSpec) (s : State) : State :=
  match findRoute s r.stream with
  | some i =>
    if writeMay w s i then { s with writing := some (.replace w r i) } else endWrite w kindRouteSet .noAccess [] s
  | none =>
    match createIndex w s with
    | some i => { s with writing := some (.create w r i) }
    | none => endWrite w kindRouteSet .full [] s

/-- A ROUTE_CLEAR write starts (R141). -/
def startClear (w : WriteRequest) (i : RouteIx) (s : State) : State :=
  if (s.route i).isNone then endWrite w kindRouteClear .notFound [] s
  else if writeMay w s i then { s with writing := some (.clear w i) }
  else endWrite w kindRouteClear .noAccess [] s

/-- The valid DYNAMIC entries, which a sweep reads at its start (R148). -/
def dynamicEntries (s : State) : BitVec 64 :=
  allRoutes.foldl
    (fun a i => match s.route i with
      | some r => if r.kind = .dynamic then a ||| (1#64 <<< i.val) else a
      | none => a)
    0#64

/-! ### The completion (R139 to R142, R148) -/

/-- ROUTE is set pending for an owner other than the requester (R142). -/
def notifyOther (rq : Requester) (owner : Option Requester) (s : State) : State :=
  if owner = some rq then s else notifyOwner .route owner s

/-- The entry after a replace (R139). -/
def replacedRoute (r : RouteSpec) (old : Route) : Route :=
  { old with source := r.source, egress := r.egress, kind := r.kind, cls := r.cls, gate := r.gate }

/-- The entry after a create: after a departure of the requester's frame its owner is NONE (R139). -/
def createdRoute (w : WriteRequest) (r : RouteSpec) : Route :=
  { stream := r.stream, source := r.source, egress := r.egress, kind := r.kind, cls := r.cls, gate := r.gate,
    used := false, owner := if w.departed then none else some w.requester }

/-- The hold-list entries that a replace no longer supports (R140). -/
def replaceCleans (old : Route) (r : RouteSpec) (h : HoldEntry) : Bool :=
  decide (h.stream = old.stream)
    && (decide (r.source ≠ old.source) || (old.egress.getLsbD h.egress.val && !r.egress.getLsbD h.egress.val))

/-- Every hold-list entry of a stream (R140). -/
def streamCleans (stream : StreamId) (h : HoldEntry) : Bool := decide (h.stream = stream)

/-- The result of a ROUTE_SET: the index, and whether the write replaced (00H) or created (01H). -/
def setResults (i : RouteIx) (created : Bool) : List Byte := enc8 i.val ++ [if created then 0x01 else 0x00]

/-- A replace completes (R139, R140, R142). -/
def completeReplace (w : WriteRequest) (r : RouteSpec) (i : RouteIx) (s : State) : State :=
  match s.route i with
  | some old =>
    let s := releaseHolds (replaceCleans old r) (s.setRoute i (some (replacedRoute r old)))
    endWrite w kindRouteSet .ok (setResults i false) (notifyOther w.requester old.owner s)
  | none => s

/-- A create completes (R139). -/
def completeCreate (w : WriteRequest) (r : RouteSpec) (i : RouteIx) (s : State) : State :=
  endWrite w kindRouteSet .ok (setResults i true) (s.setRoute i (some (createdRoute w r)))

/-- A clear completes (R140 to R142). -/
def completeClear (w : WriteRequest) (i : RouteIx) (s : State) : State :=
  match s.route i with
  | some old =>
    let s := releaseHolds (streamCleans old.stream) (s.setRoute i none)
    endWrite w kindRouteClear .ok [] (notifyOther w.requester old.owner s)
  | none => s

/-- What a sweep makes of an entry it read (R148). -/
def sweepEntry (entries : BitVec 64) (s : State) (i : RouteIx) : State :=
  match s.route i with
  | some r =>
    if entries.getLsbD i.val then
      if r.used then s.setRoute i (some { r with used := false })
      else notifyOwner .route r.owner (releaseHolds (streamCleans r.stream) (s.setRoute i none))
    else s
  | none => s

/-- A sweep completes (R148). R148 makes the change one, and gives no order for the cells it offers. The model goes by
index: the holds of an entry are removed with their RESUMEs, then its owner is told, then the next entry is dealt with.
So on an idle link the NOTICE of an earlier entry leaves before a RESUME of a later one, though RESUME is of the earlier
category. DESIGN CHOICE (logs 12 and 14). -/
def completeSweep (entries : BitVec 64) (s : State) : State := allRoutes.foldl (sweepEntry entries) s

/-! ### Walks (R143, R144) -/

/-- The entry at `i` is valid and the requester may read it. -/
def walkable (s : State) (rq : Requester) (i : RouteIx) : Bool := (s.route i).isSome && mayReadRoute s rq i

/-- The search of ROUTE_FIRST and ROUTE_NEXT from a cursor (R144). -/
def walkFrom (rq : Requester) (cursor : Nat) (s : State) : State × Reply :=
  match allRoutes.find? fun i => decide (cursor ≤ i.val) && walkable s rq i with
  | some i =>
    let last := !allRoutes.any fun j => decide (i < j) && walkable s rq j
    (s.modClient rq fun c => { c with cursor := i.val + 1 },
     .now .ok last (((s.route i).map fun r => routeWalkResults r i).getD []))
  | none => (s.modClient rq fun c => { c with cursor := 64 }, .now .notFound true [])

end Sys2Proof.Machine
end

