-- ==== Sys2Proof/Machine/StreamCmds.lean ====
section
/-! DEFINITION. The meanings of the stream commands: arriving blocks, hold expiries, aging, route writes and the route
requests (chapters 8 and 9). -/

namespace Sys2Proof.Machine

/-! ### Arriving blocks (R145, R146, R153, R183) -/

/-- The bytes of one sample. -/
def sampleBytes (wide : Bool) : Nat := if wide then 4 else 2

/-- The block of a SAMPLE body, without its timed flag; none where the body is malformed (R183). -/
def blockOf (c : RxCell) : Option Slot :=
  let width := c.body.getD 0 0
  let wide := decide (width = 0x01#8)
  let count := beNat ((c.body.drop 2).take 2)
  let payload := c.body.drop 4
  if 4 ≤ c.body.length ∧ width.toNat ≤ 1 ∧ 1 ≤ count ∧ count * sampleBytes wide ≤ 1024
      ∧ payload.length = count * sampleBytes wide then
    some { stream := headerStream c, sequence := c.sequence, stamp := c.stamp, timed := false, width := wide,
           count := count, payload := payload, refs := 0 }
  else none

/-- The used flag of an entry is set (R145). -/
def markUsed (i : RouteIx) (s : State) : State := s.setRoute i ((s.route i).map fun r => { r with used := true })

/-- The gate test of a block (R146): the counter of its drop, or none where it passes. -/
def gateDrop (gate : Option Gate) (timed : Bool) (stamp : Time) : Option LinkCounter :=
  match gate with
  | none => none
  | some g =>
    if !timed then some .dropUntimed
    else if g.start ≤ stamp ∧ stamp < g.stop then none
    else some .dropGate

/-- Tests 4 to 7 of Table 8.5 (1), under the valid entry `r` at index `i`. -/
def lookupEntry (n : Link) (block : Slot) (i : RouteIx) (r : Route) (s : State) : State :=
  if r.source ≠ n then s.count n .dropSource
  else if r.egress = 0 then (markUsed i s).count n .dropFilter
  else
    match gateDrop r.gate block.timed block.stamp with
    | some c => s.count n c
    | none => fanOut block r (markUsed i s)

/-- Tests 3 to 7; a malformed block is one of stream id 0 (R145, R183). -/
def lookupStream (n : Link) (block : Option Slot) (s : State) : State :=
  match block with
  | none => s.count n .dropNoroute
  | some b =>
    match findRoute s b.stream with
    | none => s.count n .dropNoroute
    | some i =>
      match s.route i with
      | some r => lookupEntry n b i r s
      | none => s.count n .dropNoroute

/-- Tests 1 and 2 of Table 8.5 (1) (R145). -/
def lookup (n : Link) (block : Option Slot) (s : State) : State :=
  if !s.ready then { s with initDrop := satAdd s.initDrop 1 }
  else if (s.entry n).state = .active then lookupStream n block s
  else s.count n (if (s.entry n).state = .draining then .dropDrain else .dropNotactive)

/-- A SAMPLE cell handed to the Stream Switch: counted, given its timed flag and looked up (R145, R153). -/
def takeSample (n : Link) (c : RxCell) (s : State) : State :=
  let timed := timedCondition s n
  lookup n ((blockOf c).map fun b => { b with timed := timed }) (s.count n .blocksIn)

/-- SAMPLE_CELL_RECEIVED (R145). -/
def execSampleCellReceived (n : Link) (cell : RxCell) (s : State) : Outcome := .next (receive n (takeSample n cell) s)

/-! ### Hold expiry (R163) and aging (R147) -/

/-- HOLD_EXPIRY (R163). -/
def execHoldExpiry (stream : StreamId) (egress : Link) (s : State) : Outcome :=
  .next (
    match s.holds.find? fun h => decide (h.stream = stream ∧ h.egress = egress) with
    | some h =>
      let s := advanceToRack h.expiry.toNat s
      if h.expiry.toNat ≤ s.rack.toNat then expireHold h s else s
    | none => s)

/-- The moment at which an aging interval that starts now ends (R147). -/
def agingEnd (s : State) : Nat := s.osc + s.agingInterval * secondNs

/-- The aging timer restarts, and a sweep joins the list unless one waits (R147). -/
def agingExpires (s : State) : State :=
  let s := { s with agingEnds := some (agingEnd s) }
  if s.waiting.contains .sweep then s else { s with waiting := s.waiting ++ [.sweep] }

/-- AGING_TIMER_EXPIRY (R147). -/
def execAgingTimerExpiry (s : State) : Outcome :=
  .next (
    match s.agingEnds with
    | some t => agingExpires (advanceTo t s)
    | none => s)

/-! ### Route writes and sweeps (R137 to R142, R148)

The start of a write is a command of its own, as the table has it, and so the model's unit stands idle, with the write
waiting, from the completion of the write before it, or from its own arrival at an idle unit, until that command comes;
other commands may come between (DESIGN CHOICE, log 30). -/

/-- ROUTE_WRITE_START (R139, R141): the unit is idle and its oldest waiting write is a ROUTE_SET or ROUTE_CLEAR. R137
starts it at the completion of the write before it, or at its arrival; here other commands may come between (DESIGN
CHOICE, log 30). -/
def execRouteWriteStart (s : State) : Outcome :=
  .next (
    if s.writing.isNone then
      match s.waiting with
      | .set w r :: rest => startSet w r { s with waiting := rest }
      | .clear w i :: rest => startClear w i { s with waiting := rest }
      | .sweep :: _ => s
      | [] => s
    else s)

/-- ROUTE_WRITE_COMPLETE (R139, R141). The unit is idle after it; the next write starts by its own command (log 30). -/
def execRouteWriteComplete (s : State) : Outcome :=
  .next (
    match s.writing with
    | some (.replace w r i) => completeReplace w r i { s with writing := none }
    | some (.create w r i) => completeCreate w r i { s with writing := none }
    | some (.clear w i) => completeClear w i { s with writing := none }
    | some (.sweep _) => s
    | none => s)

/-- AGING_SWEEP_START (R148): the unit is idle and its oldest waiting write is a sweep. Other commands may come between
the moment at which R137 starts it and this one (DESIGN CHOICE, log 30). -/
def execAgingSweepStart (s : State) : Outcome :=
  .next (
    if s.writing.isNone then
      match s.waiting with
      | .sweep :: rest => { s with waiting := rest, writing := some (.sweep (dynamicEntries s)) }
      | .set _ _ :: _ => s
      | .clear _ _ :: _ => s
      | [] => s
    else s)

/-- AGING_SWEEP_COMPLETE (R148). The unit is idle after it; the next write starts by its own command (log 30). -/
def execAgingSweepComplete (s : State) : Outcome :=
  .next (
    match s.writing with
    | some (.sweep entries) => completeSweep entries { s with writing := none }
    | some (.replace _ _ _) => s
    | some (.create _ _ _) => s
    | some (.clear _ _) => s
    | none => s)

/-! ### Route requests (R138, R141, R143, R144, R149) -/

/-- R137, R138. -/
def routeSetBody (q : Request) (s : State) : State × Reply :=
  if orphanRuns s q.requester then refuse .busy s
  else if !s.ready then refuse .notReady s
  else
    match routeArgs q.args with
    | none => refuse .badArg s
    | some r => joinWrites (.set (newWrite s q) r) s

/-- ROUTE_SET (R138). -/
def execRouteSet (q : Request) (s : State) : Outcome := .next (serve kindRouteSet false q (routeSetBody q) s)

/-- R137, R141. -/
def routeClearBody (q : Request) (s : State) : State × Reply :=
  if orphanRuns s q.requester then refuse .busy s
  else if !s.ready then refuse .notReady s
  else
    match indexArg 64 q.args with
    | none => refuse .badArg s
    | some i => joinWrites (.clear (newWrite s q) i) s

/-- ROUTE_CLEAR (R141). -/
def execRouteClear (q : Request) (s : State) : Outcome := .next (serve kindRouteClear false q (routeClearBody q) s)

/-- R143. That a missing index byte fails before the access check is the model's choice (DEDUCED, log 20). -/
def routeReadBody (q : Request) (s : State) : State × Reply :=
  if !s.ready then refuse .notReady s
  else
    match indexArg 64 q.args with
    | none => refuse .badArg s
    | some i => if mayReadRoute s q.requester i then (s, .ok (routeReadResults s i)) else refuse .noAccess s

/-- ROUTE_READ (R143). -/
def execRouteRead (q : Request) (s : State) : Outcome := .next (serve kindRouteRead false q (routeReadBody q) s)

/-- R144. -/
def routeFirstBody (q : Request) (s : State) : State × Reply :=
  if !s.ready then refuse .notReady s else walkFrom q.requester 0 s

/-- ROUTE_FIRST (R144). -/
def execRouteFirst (q : Request) (s : State) : Outcome := .next (serve kindRouteFirst false q (routeFirstBody q) s)

/-- R144. -/
def routeNextBody (q : Request) (s : State) : State × Reply :=
  if !s.ready then refuse .notReady s else walkFrom q.requester (s.client q.requester).cursor s

/-- ROUTE_NEXT (R144). -/
def execRouteNext (q : Request) (s : State) : Outcome := .next (serve kindRouteNext false q (routeNextBody q) s)

/-- The ranges of Table 8.6 (1); the low watermark is clamped against the high watermark after the request. -/
def clampAging (x : Nat) : Nat := min (max x 1) 255
def clampHigh (x : Nat) : Nat := min (max x 4) 24
def clampLow (high x : Nat) : Nat := min x (high - 1)
def clampHold (x : Nat) : Nat := min (max x 1) 65535

/-- The settings are stored, and a running aging timer restarts with a given interval (R149). A stored low watermark that
a lowered high watermark leaves out of range is clamped too (log 21). -/
def storeStreamSettings (a : StreamArgs) (s : State) : State :=
  let high := (a.high.map clampHigh).getD s.highMark
  let s := { s with
    agingInterval := (a.aging.map clampAging).getD s.agingInterval
    highMark := high
    lowMark := clampLow high (a.low.getD s.lowMark)
    holdTime := (a.hold.map clampHold).getD s.holdTime }
  if a.aging.isSome ∧ s.agingEnds.isSome then { s with agingEnds := some (agingEnd s) } else s

/-- Some value was clamped (R149). -/
def streamClamped (a : StreamArgs) (s : State) : Bool :=
  let high := (a.high.map clampHigh).getD s.highMark
  outside clampAging a.aging || outside clampHigh a.high || outside clampHold a.hold
    || decide (clampLow high (a.low.getD s.lowMark) ≠ a.low.getD s.lowMark)

/-- R149. -/
def streamConfigBody (q : Request) (s : State) : State × Reply :=
  match streamArgs q.args with
  | none => refuse .badArg s
  | some a => (storeStreamSettings a s, .config (streamClamped a s))

/-- STREAM_CONFIG (R149). -/
def execStreamConfig (q : Request) (s : State) : Outcome :=
  .next (serve kindStreamConfig false q (streamConfigBody q) s)

end Sys2Proof.Machine
end

