-- ==== Sys2Proof/Machine/TimeCmds.lean ====
section
/-! DEFINITION. The meanings of the timebase commands: the sync exchange, the holdover limit and the timebase requests
(chapters 5 and 6). -/

namespace Sys2Proof.Machine

/-! ### The sync exchange (R88, R89) -/

/-- What a SYNC_REPLY carries, from its header and body (Tables 11.1 (1) and 11.2 (1)). -/
def replyOf (c : RxCell) : ReplyData :=
  { number := c.sequence
    t2 := BitVec.ofNat 64 (beNat (c.body.take 8))
    t3 := BitVec.ofNat 64 (beNat ((c.body.drop 8).take 8))
    t2Valid := c.flags.getLsbD 2
    t3Valid := c.flags.getLsbD 3
    grade := (c.body.getD 16 0).toNat }

/-- A SYNC_REPLY handed to the Timebase Unit; one of the wrong length is not matched (R89, R183). -/
def takeSyncReply (n : Link) (c : RxCell) (s : State) : State :=
  if c.body.length = 20 then matchReply n (replyOf c) s else s.count n .syncDiscarded

/-- SYNC_REPLY_RECEIVED (R89). -/
def execSyncReplyReceived (n : Link) (cell : RxCell) (s : State) : Outcome :=
  .next (receive n (takeSyncReply n cell) s)

/-- A SYNC_REQ with the next number is offered; refused, its exchange closes as missing (R88). -/
def openExchange (n : Link) (s : State) : State :=
  let number := (s.sync n).number + 1
  let s := s.modSync n fun l =>
    { l with number := number, exchange := some { number := number, t1 := none, limit := none, stale := false } }
  if arbiterTakes (s.port n).state (.sync (.req number)) then offerCell n (.sync (.req number)) s
  else closeMissing n s

/-- An exchange falls due at the schedule's next due time (R87, R88). -/
def exchangeFallsDue (n : Link) (sc : Schedule) (s : State) : State :=
  let s := s.modSync n fun l =>
    { l with schedule := some { lastDue := some sc.nextDue, nextDue := sc.nextDue + exchangePeriod s.tb.k } }
  match (s.sync n).exchange with
  | some _ => countMissing n s
  | none => openExchange n s

/-- EXCHANGE_DUE (R88). -/
def execExchangeDue (n : Link) (s : State) : Outcome :=
  .next (
    match (s.sync n).schedule with
    | some sc => exchangeFallsDue n sc (advanceTo sc.nextDue s)
    | none => s)

/-- REPLY_LIMIT_EXPIRY (R89). -/
def execReplyLimitExpiry (n : Link) (s : State) : Outcome :=
  .next (
    match (s.sync n).exchange.bind (·.limit) with
    | some t => closeMissing n (advanceTo t s)
    | none => s)

/-- HOLDOVER_LIMIT_EXPIRY (R84). -/
def execHoldoverLimitExpiry (s : State) : Outcome :=
  .next (
    match s.tb.state, s.tb.holdoverSince with
    | .holdover, some since => leaveHoldover (advanceTo (since + s.tb.holdoverLimit * secondNs) s)
    | _, _ => s)

/-! ### Timebase requests (R98 to R100, R115) -/

/-- The access check of space TIMEBASE (5.8). -/
def onTimebase (q : Request) (allowed : State → Requester → Space → Nat → Bool)
    (body : State → State × Reply) (s : State) : State × Reply :=
  if allowed s q.requester .timebase 0 then body s else refuse .noAccess s

/-- R98. -/
def timeReadBody (q : Request) (s : State) : State × Reply :=
  onTimebase q mayRead (fun s => (s, .ok (timeReadResults s))) s

/-- TIME_READ (R98). -/
def execTimeRead (q : Request) (s : State) : Outcome := .next (serve kindTimeRead false q (timeReadBody q) s)

/-- A valid list replaces the stored one, and the comparison of R79 is made (R99). -/
def setPriority (list : List Link) (s : State) : State :=
  if list = s.tb.priority then s else compareSource (s.modTb fun t => { t with priority := list })

/-- R99. -/
def timeSourceBody (q : Request) (s : State) : State × Reply :=
  onTimebase q mayModify (fun s =>
    match priorityArg q.args with
    | none => refuse .badArg s
    | some list => (setPriority list s, .of .ok)) s

/-- TIME_SOURCE (R99). -/
def execTimeSource (q : Request) (s : State) : Outcome := .next (serve kindTimeSource false q (timeSourceBody q) s)

/-- The ranges of Table 5.8 (1). -/
def clampK (x : Nat) : Nat := min x 4
def clampWindow (x : Nat) : Nat := min (max x 20) 1000
def clampThreshold (x : Nat) : Nat := min (max x 1000) 1000000
def clampHoldover (x : Nat) : Nat := min (max x 1) 3600
def clampTrim (x : Int) : Int := clampInt (-trimBound) trimBound x

/-- Some setting of a TIME_CONFIG is outside its range (R100). -/
def timeClamped (a : TimeArgs) : Bool :=
  outside clampK a.k || outside clampWindow a.window || outside clampThreshold a.stepThreshold
    || outside clampHoldover a.holdoverLimit || outside clampTrim a.freeTrim

/-- The settings are stored; a free-run trim becomes T at once while the source is INTERNAL (R85, R100). -/
def storeTimeSettings (a : TimeArgs) (t : Timebase) : Timebase :=
  let t := { t with
    k := (a.k.map clampK).getD t.k
    window := (a.window.map clampWindow).getD t.window
    stepThreshold := (a.stepThreshold.map clampThreshold).getD t.stepThreshold
    holdoverLimit := (a.holdoverLimit.map clampHoldover).getD t.holdoverLimit
    freeTrim := (a.freeTrim.map clampTrim).getD t.freeTrim }
  if a.freeTrim.isSome ∧ t.source = .internal then { t with trim := t.freeTrim } else t

/-- What a change of settings brings about at once: the schedules at a change of k, and a holdover limit already
reached (R87, R84, R100). At which point of a soft reset it stands is in log 13. -/
def settingsTakeEffect (oldK : Nat) (s : State) : State :=
  let s := if s.tb.k = oldK then s else rescheduleLinks s
  if holdoverOver s then leaveHoldover s else s

/-- R100. -/
def timeConfigBody (q : Request) (s : State) : State × Reply :=
  onTimebase q mayModify (fun s =>
    match timeArgs q.args with
    | none => refuse .badArg s
    | some a => (settingsTakeEffect s.tb.k (s.modTb (storeTimeSettings a)), .config (timeClamped a))) s

/-- TIME_CONFIG (R100). -/
def execTimeConfig (q : Request) (s : State) : Outcome := .next (serve kindTimeConfig false q (timeConfigBody q) s)

/-- R115: the link number, then the access check on TIMEBASE 0. That a missing link byte fails before the access check
is the model's choice (DEDUCED, log 20). -/
def syncReadBody (q : Request) (s : State) : State × Reply :=
  match readLink q.args with
  | none => refuse .badArg s
  | some (n, _) => onTimebase q mayRead (fun s => (s, .ok (syncReadResults s n))) s

/-- SYNC_READ (R115). -/
def execSyncRead (q : Request) (s : State) : Outcome := .next (serve kindSyncRead false q (syncReadBody q) s)

end Sys2Proof.Machine
end

