-- ==== Sys2Proof/Machine/ResetOps.lean ====
section
/-! DEFINITION. Full reset and the soft reset of every block (R20, R21, R34, R60, R61, R74, R75, R101, R102, R116, R135,
R150, R151, R167, R179, R180). The order in which the blocks are taken at soft reset is in log 13. -/

namespace Sys2Proof.Machine

/-! ### Full reset -/

/-- A link's lines at full reset, with the levels the outside drives (R74). -/
def resetLines (l : LinkLines) : LinkLines :=
  { LinkLines.fullReset with presentPin := l.presentPin, swapreqPin := l.swapreqPin, trigPin := l.trigPin }

/-- Every block at its full-reset values. What the outside drives, the clock and the queue of commands stay as they
are. -/
def fullReset (asserted : Bool) (s : State) : State :=
  { State.reset with
    pending := s.pending
    osc := s.osc
    idleNs := s.idleNs
    resetAsserted := asserted
    ports := s.ports.map fun p => { LinkPort.fullReset with activity := p.activity }
    lines := s.lines.map resetLines
    panel := { PanelLines.fullReset with triginPin := s.panel.triginPin } }

/-! ### Soft reset -/

/-- The answer of an abandoned route write: NOTREADY, except of an orphaned one (R137, R150). -/
def abandonWaiting (s : State) (w : WaitingWrite) : State :=
  match w with
  | .set w _ => endWrite w kindRouteSet .notReady [] s
  | .clear w _ => endWrite w kindRouteClear .notReady [] s
  | .sweep => s

/-- The same of the write in progress. -/
def abandonActive (w : Option ActiveWrite) (s : State) : State :=
  match w with
  | some (.replace w _ _) => endWrite w kindRouteSet .notReady [] s
  | some (.create w _ _) => endWrite w kindRouteSet .notReady [] s
  | some (.clear w _) => endWrite w kindRouteClear .notReady [] s
  | some (.sweep _) => s
  | none => s

/-- A block in transmission is abandoned uncounted (R21, R167). -/
def dropBlock (p : LinkPort) : LinkPort := if (sendingBlock p).isSome then { p with tx := none } else p

/-- The Stream Switch: initialisation begins, and every route, slot, queue and hold is cleared (R150, R151, R167). -/
def resetStreams (s : State) : State :=
  let writing := s.writing
  let waiting := s.waiting
  let s := { s with writing := none, waiting := [] }
  let s := waiting.foldl abandonWaiting (abandonActive writing s)
  { s with
    routes := Vector.replicate 64 none, pool := Vector.replicate 96 none
    egress := Vector.replicate 6 .fullReset, holds := []
    ports := s.ports.map dropBlock
    ready := false, agingEnds := none, initDrop := 0
    agingInterval := 60, highMark := 18, lowMark := 6, holdTime := 500
    clients := s.clients.map fun c => { c with cursor := 0 } }

/-- The Trigger Unit: its full-reset values, with no notice (R135). -/
def resetTriggers (s : State) : State :=
  { s with trigs := Vector.replicate 16 .free, captures := [], captureCount := 0, lead := leadDefault }

/-- The Timebase Unit: the settings and the priority list return to their defaults and take effect (R102, R116).

R84 judges the holdover timer by the limit in force at each moment, so a timer already past the returned 600 s expires
(DEDUCED). R102 does not say when, against the list of what stays and against the entries that then move. That it
expires here, before the comparison and before the entries move (`resetRoster`), is a DESIGN CHOICE (log 13): the
timebase is FREERUN when its source goes, so a source LINK n lost with no candidate remaining ends as INTERNAL with T at
the free-run trim (R81). In the other order it ends as FREERUN with source NONE and T as frozen. -/
def resetTimebase (s : State) : State :=
  let oldK := s.tb.k
  let s := s.modTb fun t =>
    { t with k := 3, window := 100, stepThreshold := 10000, holdoverLimit := 600, priority := [0, 1, 2, 3, 4, 5] }
  compareSource (settingsTakeEffect oldK s)

/-- A link's lines: FUNCTION, latch 0, INPUT, no pulse; the hold record returns to its default unless it is in use
(R75). -/
def softLines (inUse : Bool) (l : LinkLines) : LinkLines :=
  { resetLines l with hold := if inUse then l.hold else .fullReset }

/-- The Sideband Line Unit (R75), but for the comparisons of R36. It comes before them, so that the hold record of a
QUIESCED entry is kept even where the falling comparison of the same soft reset empties that entry; R75 leaves open
whether such a record is kept or returns to its default, and keeping it is a DESIGN CHOICE (log 13). -/
def resetAllLines (s : State) : State :=
  { s with
    lines := s.lines.mapFinIdx fun i l h => softLines (held s ⟨i, h⟩) l
    panel := { PanelLines.fullReset with triginPin := s.panel.triginPin } }

/-- The entries that soft reset returns to IDENTIFYING (R61). -/
def returns (s : State) (n : Link) : Bool :=
  inService (s.port n).state
    && (decide ((s.entry n).state = .active) || decide ((s.entry n).state = .draining)
      || decide ((s.entry n).state = .pending) || decide ((s.entry n).state = .identifying))

/-- An entry at soft reset (R61). -/
def softEntry (back : Bool) (osc : Nat) (e : RosterEntry) : RosterEntry :=
  let e := { e with policy := .auto, swapPending := false }
  if back then
    { e with state := .identifying, identity := none, identWait := some (osc + identityWaitNs), drainEnds := none }
  else e

/-- What follows for link `n` from the passage of its entry to IDENTIFYING (R27, R35, R44, R87). -/
def softEffects (before : State) (s : State) (n : Link) : State :=
  let s := probeFollowsRoster n (refreshSchedule n s)
  let s := if (before.entry n).state = .active ∧ (s.entry n).state ≠ .active then cancelTriggers n s else s
  if (before.entry n).state = (s.entry n).state then s else notifyAll .roster s

/-- The Frame Roster: every entry is taken together, then the source is compared once (R61, R102). R102 says that the
source is lost when it goes, and not whether the comparison is made once, after all ACTIVE entries have left, or as each
leaves; that it is made once is a DESIGN CHOICE (log 13). Entry by entry, a source in HOLDOVER or FREERUN that leaves
another candidate behind would pass through ACQUIRING to HOLDOVER with T := I and a new holdover timer (R80, R81). -/
def resetRoster (s : State) : State :=
  let moved := { s with
    roster := s.roster.mapFinIdx fun i e h => softEntry (returns s ⟨i, h⟩) s.osc e
    admitMinSteps := 6, drainLimitMs := 50 }
  compareSource (allLinks.foldl (softEffects s) moved)

/-- Every counter of every set is 0 (R21). -/
def zeroCounters (s : State) : State :=
  { s with counters := Vector.replicate 6 (Vector.replicate 22 0), initDrop := 0, captureOverflow := 0 }

/-- The soft reset of every block (R179). -/
def softReset (s : State) : State :=
  let s := resetTimebase (resetTriggers (resetStreams s))
  let s := resetRoster (resetAllLines s)
  let s := allLinks.foldl (fun s n => samplePresence n s) s
  let s := zeroCounters { s with access := accessReset }
  allLinks.foldl (fun s n => startNext n s) s

end Sys2Proof.Machine
end

