-- ==== Sys2Proof/Machine/ResetCmds.lean ====
section
/-! DEFINITION. The meanings of the reset commands (R20, R60, R101, R150, R179, R180). -/

namespace Sys2Proof.Machine

/-- RESET_ASSERT (R20): every block takes its full-reset values, and the lanes are quiet while the input stays
asserted. -/
def execResetAssert (s : State) : Outcome := .next (fullReset true s)

/-- What a port does when RESET is released: the roster samples its PRESENT pin, and it trains if it may (R2, R60). -/
def releaseLink (s : State) (n : Link) : State := tryTrain n (samplePresence n s)

/-- RESET_RELEASE (R60, R101, R150): rack time starts at 0, the initialisation of the Stream Switch begins, and the
roster samples each PRESENT pin. -/
def execResetRelease (s : State) : Outcome :=
  .next (if s.resetAsserted then allLinks.foldl releaseLink (fullReset false s) else s)

/-- SWITCH_INITIALISATION_COMPLETE (R147, R150): the switch is ready and the aging timer starts. -/
def execSwitchInitialisationComplete (s : State) : Outcome :=
  .next (
    if s.ready ∨ s.resetAsserted then s
    else { s with ready := true, agingEnds := some (agingEnd s) })

/-- R179: the request is answered OK once initialisation has begun. -/
def hubResetBody (s : State) : State × Reply := (softReset s, .of .ok)

/-- HUB_RESET (R179). -/
def execHubReset (q : Request) (s : State) : Outcome := .next (serve kindHubReset false q hubResetBody s)

end Sys2Proof.Machine
end

