-- ==== Sys2Proof/Machine/RosterCmds.lean ====
section
/-! DEFINITION. The meanings of the roster commands: presence, swap requests, IDENT cells, the roster's timers and the
roster requests (chapter 3). -/

namespace Sys2Proof.Machine

/-! ### Presence and swap requests -/

/-- The link DOWN that PRESENT going low brings about (R5, R11, R15). -/
def presenceTakesDown (n : Link) (s : State) : State :=
  match (s.port n).state with
  | .training => portDown n s
  | .up => portDown n s
  | .recovery => portDown n s
  | .off => s
  | .down => s

/-- The presence edge reaches the roster in FUNCTION mode only (R36, R63). -/
def presenceEdgeFalls (n : Link) (s : State) : State :=
  match (s.line n).present.mode with
  | .function => presenceFalls n s
  | .direct => s

def presenceEdgeRises (n : Link) (s : State) : State :=
  match (s.line n).present.mode with
  | .function => presenceRises n s
  | .direct => s

/-- The pin falls and the training failure count is cleared, in every link state (R15). -/
def pinFalls (n : Link) (s : State) : State :=
  (s.modLine n fun l => { l with presentPin := false }).modPort n fun p => { p with failCount := 0 }

/-- PRESENT_FALL (R15, R51): the two causes in either order. -/
def execPresentFall (n : Link) (edgeFirst : Bool) (s : State) : Outcome :=
  .next (
    if (s.line n).presentPin then
      if edgeFirst then presenceTakesDown n (presenceEdgeFalls n (pinFalls n s))
      else presenceEdgeFalls n (presenceTakesDown n (pinFalls n s))
    else s)

/-- PRESENT_RISE (R2, R36, R37). -/
def execPresentRise (n : Link) (s : State) : Outcome :=
  .next (
    if (s.line n).presentPin then s
    else tryTrain n (presenceEdgeRises n (s.modLine n fun l => { l with presentPin := true })))

/-- SWAP_REQUEST (R36, R43, R52): a rising edge in FUNCTION mode is a swap request. -/
def execSwapRequest (n : Link) (edge : Edge) (s : State) : Outcome :=
  .next (
    match edge with
    | .falling => s.modLine n fun l => { l with swapreqPin := false }
    | .rising =>
      let s := s.modLine n fun l => { l with swapreqPin := true }
      match (s.line n).swapreq.mode with
      | .function => swapRequested n s
      | .direct => s)

/-! ### Identity (R39, R40) -/

/-- The admit policy decides (R40). -/
def admitByPolicy (n : Link) (s : State) : State :=
  match (s.entry n).policy with
  | .auto => toActive n s
  | .manual => moveEntry n .pending id s

/-- The record of an IDENT body (Table 11.2 (1)). -/
def identOf (body : List Byte) : Identity :=
  { serial := BitVec.ofNat 64 (beNat (body.take 8))
    cls := (body.getD 8 0).toNat
    grade := (body.getD 9 0).toNat
    slots := (body.getD 10 0).toNat }

/-- The fields of a record are in range (R40). -/
def identFits (i : Identity) : Bool := decide (i.cls ≤ 15 ∧ i.grade ≤ 3 ∧ 1 ≤ i.slots ∧ i.slots ≤ 20)

/-- The record has the serial, class and slot count of the stored identity (R40). -/
def identMatches (stored new : Identity) : Bool :=
  decide (stored.serial = new.serial ∧ stored.cls = new.cls ∧ stored.slots = new.slots)

/-- A well-formed record in IDENTIFYING (R40). -/
def identify (n : Link) (i : Identity) (s : State) : State :=
  match (s.entry n).identity with
  | none => admitByPolicy n (s.modEntry n fun e => { e with identity := some i })
  | some stored => if identMatches stored i then admitByPolicy n s else toFaulted n .mismatch s

/-- An IDENT handed to the roster (R40, R183). -/
def takeIdent (n : Link) (body : List Byte) (s : State) : State :=
  if body.length = 12 ∧ (s.entry n).state = .identifying ∧ identFits (identOf body) then identify n (identOf body) s
  else s

/-- IDENT_RECEIVED (R40). -/
def execIdentReceived (n : Link) (cell : RxCell) (s : State) : Outcome := .next (receive n (takeIdent n cell.body) s)

/-! ### Timers -/

/-- IDENTITY_WAIT_EXPIRY (R39). -/
def execIdentityWaitExpiry (n : Link) (s : State) : Outcome :=
  .next (
    match (s.entry n).state, (s.entry n).identWait with
    | .identifying, some t => toFaulted n .noident (advanceTo t s)
    | _, _ => s)

/-- DRAIN_LIMIT_EXPIRY (R46): what remains is flushed, and the entry passes to QUIESCED. -/
def execDrainLimitExpiry (n : Link) (s : State) : Outcome :=
  .next (
    match (s.entry n).state, (s.entry n).drainEnds with
    | .draining, some t => toQuiesced n .drainForced (flushLink n (advanceTo t s))
    | _, _ => s)

/-! ### Roster requests (R54 to R59) -/

/-- R54. -/
def rosterReadBody (q : Request) (s : State) : State × Reply :=
  onLink q mayRead .roster (fun n _ s => (s, .ok (rosterReadResults s n))) s

/-- ROSTER_READ (R54). -/
def execRosterRead (q : Request) (s : State) : Outcome := .next (serve kindRosterRead false q (rosterReadBody q) s)

/-- R55. -/
def admitFrame (n : Link) (s : State) : State × Reply :=
  if (s.entry n).state = .pending then (toActive n s, .of .ok) else refuse .state s

def frameAdmitBody (q : Request) (s : State) : State × Reply := onLink q mayModify .roster (fun n _ s => admitFrame n s) s

/-- FRAME_ADMIT (R55). -/
def execFrameAdmit (q : Request) (s : State) : Outcome := .next (serve kindFrameAdmit false q (frameAdmitBody q) s)

/-- The expected epoch, if given, is the entry's (R56, R58). -/
def epochFits (e : RosterEntry) (expected : Option Nat) : Bool :=
  match expected with
  | none => true
  | some x => decide (x = e.epoch.toNat)

/-- R56. -/
def releaseFrame (n : Link) (rest : List Byte) (s : State) : State × Reply :=
  match epochArg rest with
  | none => refuse .badArg s
  | some expected =>
    if (s.entry n).state = .active ∧ epochFits (s.entry n) expected then (toDraining n s, .of .accepted)
    else refuse .state s

def frameReleaseBody (q : Request) (s : State) : State × Reply := onLink q mayModify .roster releaseFrame s

/-- FRAME_RELEASE (R56). -/
def execFrameRelease (q : Request) (s : State) : Outcome :=
  .next (serve kindFrameRelease false q (frameReleaseBody q) s)

/-- QUIESCED to DETECTED: the hold ends and the port leaves OFF if its setting is ON (R1, R49, R57). -/
def restoreFrame (n : Link) (s : State) : State × Reply :=
  if (s.entry n).state = .quiesced then (leaveOff n (toDetected n s), .of .accepted) else refuse .state s

def frameRestoreBody (q : Request) (s : State) : State × Reply :=
  onLink q mayModify .roster (fun n _ s => restoreFrame n s) s

/-- FRAME_RESTORE (R57). -/
def execFrameRestore (q : Request) (s : State) : Outcome :=
  .next (serve kindFrameRestore false q (frameRestoreBody q) s)

/-- The states FRAME_EVICT acts on (R58). -/
def evictable (st : RosterState) : Bool :=
  decide (st = .pending) || decide (st = .active) || decide (st = .draining)

/-- R58. -/
def evictFrame (n : Link) (rest : List Byte) (s : State) : State × Reply :=
  match epochArg rest with
  | none => refuse .badArg s
  | some expected =>
    if evictable (s.entry n).state ∧ epochFits (s.entry n) expected then (toQuiesced n .evicted s, .of .ok)
    else refuse .state s

def frameEvictBody (q : Request) (s : State) : State × Reply := onLink q mayModify .roster evictFrame s

/-- FRAME_EVICT (R58). -/
def execFrameEvict (q : Request) (s : State) : Outcome := .next (serve kindFrameEvict false q (frameEvictBody q) s)

/-- The entries with the policies given (R59). -/
def givePolicies (ps : List (Option Policy)) (roster : Vector RosterEntry 6) : Vector RosterEntry 6 :=
  roster.mapFinIdx fun i e _ =>
    match ps[i]? with
    | some (some p) => { e with policy := p }
    | some none => e
    | none => e

/-- The settings of ROSTER_CONFIG, clamped (R59). -/
def clampMinSteps (x : Nat) : Nat := min x 31
def clampDrainLimit (x : Nat) : Nat := min (max x 1) 1000

/-- R59. -/
def rosterConfigBody (q : Request) (s : State) : State × Reply :=
  match rosterArgs q.args with
  | none => refuse .badArg s
  | some a =>
    ({ s with
        roster := givePolicies a.policies s.roster
        admitMinSteps := (a.minSteps.map clampMinSteps).getD s.admitMinSteps
        drainLimitMs := (a.limitMs.map clampDrainLimit).getD s.drainLimitMs },
     .config (outside clampMinSteps a.minSteps || outside clampDrainLimit a.limitMs))

/-- ROSTER_CONFIG (R59). -/
def execRosterConfig (q : Request) (s : State) : Outcome :=
  .next (serve kindRosterConfig false q (rosterConfigBody q) s)

end Sys2Proof.Machine
end

