-- ==== Sys2Proof/Machine/TrigCmds.lean ====
section
/-! DEFINITION. The meanings of the trigger commands: TRIGGER cells from frames, send and panel events, and the trigger
and capture requests (chapter 7). -/

namespace Sys2Proof.Machine

/-! ### Events -/

/-- The captured rack time of a TRIGGER cell: its arrival less D (R113). -/
def compensatedTime (s : State) (n : Link) : Time := fitTime ((s.rack.toNat : Int) - ((s.sync n).delay.getD 0 : Nat))

/-- A TRIGGER cell handed to the Trigger Unit; one of the wrong length makes no capture (R131, R183). -/
def takeTriggerCell (n : Link) (c : RxCell) (s : State) : State :=
  if c.body.length = 4 then
    makeCapture (.triggerCell n) (.link n) (compensatedTime s n) (s.sync n).delay.isNone (some c.stamp)
      (some ((c.body.getD 0 0).extractLsb' 0 4)) s
  else s

/-- TRIGGER_CELL_RECEIVED (R131). -/
def execTriggerCellReceived (n : Link) (cell : RxCell) (s : State) : Outcome :=
  .next (receive n (takeTriggerCell n cell) s)

/-- SEND_EVENT (R121, R122): the rack time reaches the send time of an ARMED entry. -/
def execSendEvent (i : TrigIx) (s : State) : Outcome :=
  .next (
    if (s.trig i).state = .armed then
      let s := advanceToRack ((s.trig i).compare.toNat - s.lead) s
      if sendDue s (s.trig i) then sendNow i false s else s
    else s)

/-- PANEL_EVENT (R123): the rack time reaches the compare time of a pending pulse. -/
def execPanelEvent (i : TrigIx) (s : State) : Outcome :=
  .next (
    match (s.trig i).pulse with
    | some p =>
      let s := advanceToRack p.compare.toNat s
      if p.compare.toNat ≤ s.rack.toNat then panelNow i s else s
    | none => s)

/-! ### Arming (R119, R120) -/

/-- The entry that TRIG_ARM writes, but for its pending pulse, which is kept (R117, R119). -/
def armedEntry (rq : Requester) (a : ArmArgs) (pulse : Option PendingPulse) : TrigEntry :=
  { state := match a.mode with
      | .atTime => .armed
      | .onCapture => .waiting
    owner := some rq, mode := a.mode, compare := a.compare, period := a.period, repeats := a.repeats, source := a.source,
    delay := a.delay, targets := a.targets, code := a.code, outcome := .none, fires := 0, skips := 0, missedTargets := 0,
    missedCaptures := 0, pulse := pulse }

/-- The entry is written, and an ARMED one is tested at once (R119, R121). -/
def armTrig (i : TrigIx) (rq : Requester) (a : ArmArgs) (s : State) : State × Reply :=
  (testArmed (s.modTrig i fun e => armedEntry rq a e.pulse) i, .ok (enc8 i.val))

/-- Check 2 of Table 7.3 (1). -/
def mayArm (s : State) (rq : Requester) (i : TrigIx) : Bool :=
  mayModifyTrig s rq i && (decide ((s.trig i).owner = none) || decide ((s.trig i).owner = some rq))

/-- R119, Table 7.3 (1). That a missing index byte fails at check 1 and missing later bytes at check 3, after the
access check, is the model's choice (DEDUCED, log 20). -/
def trigArmBody (q : Request) (s : State) : State × Reply :=
  match indexArg 16 q.args with
  | none => refuse .badArg s
  | some i =>
    if mayArm s q.requester i then
      match armArgs s.lead (q.args.drop 1) with
      | none => refuse .badArg s
      | some a =>
        if (s.trig i).state = .free ∨ (s.trig i).state = .done then armTrig i q.requester a s else refuse .state s
    else refuse .noAccess s

/-- TRIG_ARM (R119). -/
def execTrigArm (q : Request) (s : State) : Outcome := .next (serve kindTrigArm false q (trigArmBody q) s)

/-- An entry that ANY may take (R120). -/
def qualifies (s : State) (rq : Requester) (i : TrigIx) : Bool :=
  (decide ((s.trig i).state = .free) && mayModifyTrig s rq i)
    || (decide ((s.trig i).state = .done) && decide ((s.trig i).owner = some rq))

/-- R120. -/
def trigArmAnyBody (q : Request) (s : State) : State × Reply :=
  match armArgs s.lead (q.args.drop 1) with
  | none => refuse .badArg s
  | some a =>
    match allTrigs.find? (qualifies s q.requester) with
    | some i => armTrig i q.requester a s
    | none => refuse .full s

/-- TRIG_ARM with ANY (R120). -/
def execTrigArmAny (q : Request) (s : State) : Outcome := .next (serve kindTrigArm false q (trigArmAnyBody q) s)

/-! ### Cancel, release, read, configure (R118, R129, R130) -/

/-- The index and the permission of the requests that name an entry. That a missing index byte fails before the access
check is the model's choice (DEDUCED, log 20). -/
def onTrig (q : Request) (allowed : State → Requester → TrigIx → Bool) (body : TrigIx → State → State × Reply)
    (s : State) : State × Reply :=
  match indexArg 16 q.args with
  | none => refuse .badArg s
  | some i => if allowed s q.requester i then body i s else refuse .noAccess s

/-- R129. -/
def cancelTrig (i : TrigIx) (s : State) : State × Reply :=
  if (s.trig i).state = .waiting ∨ (s.trig i).state = .armed then (finishTrig i .cancelledRequest id s, .of .ok)
  else refuse .state s

def trigCancelBody (q : Request) (s : State) : State × Reply := onTrig q mayModifyTrig cancelTrig s

/-- TRIG_CANCEL (R129). -/
def execTrigCancel (q : Request) (s : State) : Outcome := .next (serve kindTrigCancel false q (trigCancelBody q) s)

/-- DONE to FREE, the pending pulse kept (R117, R130). -/
def releaseTrig (i : TrigIx) (s : State) : State × Reply :=
  if (s.trig i).state = .done then (s.modTrig i fun e => { TrigEntry.free with pulse := e.pulse }, .of .ok)
  else refuse .state s

def trigReleaseBody (q : Request) (s : State) : State × Reply := onTrig q mayModifyTrig releaseTrig s

/-- TRIG_RELEASE (R130). -/
def execTrigRelease (q : Request) (s : State) : Outcome := .next (serve kindTrigRelease false q (trigReleaseBody q) s)

/-- R130. -/
def trigReadBody (q : Request) (s : State) : State × Reply :=
  onTrig q mayReadTrig (fun i s => (s, .ok (trigReadResults s i))) s

/-- TRIG_READ (R130). -/
def execTrigRead (q : Request) (s : State) : Outcome := .next (serve kindTrigRead false q (trigReadBody q) s)

/-- LEAD is stored, clamped, and every ARMED entry is tested against it (R118, R121). -/
def trigConfigBody (q : Request) (s : State) : State × Reply :=
  match read32 q.args with
  | none => refuse .badArg s
  | some (x, _) =>
    (allTrigs.foldl testArmed { s with lead := min x leadMax }, .config (decide (leadMax < x)))

/-- TRIG_CONFIG (R118). -/
def execTrigConfig (q : Request) (s : State) : Outcome := .next (serve kindTrigConfig false q (trigConfigBody q) s)

/-! ### The capture queue (R134) -/

/-- R134. -/
def capturePeekBody (q : Request) (s : State) : State × Reply :=
  if mayRead s q.requester .capture 0 then
    match s.captures with
    | c :: _ => (s, .ok (captureRecord c ++ enc8 s.captures.length))
    | [] => (s, .now .notFound false (enc8 0))
  else refuse .noAccess s

/-- CAPTURE_PEEK (R134). -/
def execCapturePeek (q : Request) (s : State) : Outcome := .next (serve kindCapturePeek false q (capturePeekBody q) s)

/-- R134. -/
def capturePopBody (q : Request) (s : State) : State × Reply :=
  if mayModify s q.requester .capture 0 then
    match s.captures with
    | c :: rest => ({ s with captures := rest }, .ok (captureRecord c ++ enc8 rest.length))
    | [] => refuse .notFound s
  else refuse .noAccess s

/-- CAPTURE_POP (R134). -/
def execCapturePop (q : Request) (s : State) : Outcome := .next (serve kindCapturePop false q (capturePopBody q) s)

end Sys2Proof.Machine
end

