-- ==== Sys2Proof/Machine/Dispatch.lean ====
section
/-! DEFINITION. The dispatch: one arm for each command, one direct call of its meaning. -/

namespace Sys2Proof.Machine

/-- The effect of a command on everything but the queue. -/
def exec (i : Instr) (s : State) : Host.Outcome State Fault Refusal :=
  match i with
  | .resetAssert => Sys2Proof.Machine.execResetAssert s
  | .resetRelease => Sys2Proof.Machine.execResetRelease s
  | .switchInitialisationComplete => Sys2Proof.Machine.execSwitchInitialisationComplete s
  | .presentFall n edgeFirst => Sys2Proof.Machine.execPresentFall n edgeFirst s
  | .presentRise n => Sys2Proof.Machine.execPresentRise n s
  | .swapRequest n edge => Sys2Proof.Machine.execSwapRequest n edge s
  | .trainingActivity n seen => Sys2Proof.Machine.execTrainingActivity n seen s
  | .trainingAllAligned n => Sys2Proof.Machine.execTrainingAllAligned n s
  | .trainingLimitExpiry n aligned => Sys2Proof.Machine.execTrainingLimitExpiry n aligned s
  | .alignmentLost n lane => Sys2Proof.Machine.execAlignmentLost n lane s
  | .recoveryAllAligned n => Sys2Proof.Machine.execRecoveryAllAligned n s
  | .recoveryLimitExpiry n aligned => Sys2Proof.Machine.execRecoveryLimitExpiry n aligned s
  | .cellErrored n marked => Sys2Proof.Machine.execCellErrored n marked s
  | .unknownKindCell n => Sys2Proof.Machine.execUnknownKindCell n s
  | .sampleCellReceived n cell => Sys2Proof.Machine.execSampleCellReceived n cell s
  | .syncReplyReceived n cell => Sys2Proof.Machine.execSyncReplyReceived n cell s
  | .triggerCellReceived n cell => Sys2Proof.Machine.execTriggerCellReceived n cell s
  | .identReceived n cell => Sys2Proof.Machine.execIdentReceived n cell s
  | .malformedControlCell n body => Sys2Proof.Machine.execMalformedControlCell n body s
  | .cellTransmissionComplete n => Sys2Proof.Machine.execCellTransmissionComplete n s
  | .dwellEnd n => Sys2Proof.Machine.execDwellEnd n s
  | .identityWaitExpiry n => Sys2Proof.Machine.execIdentityWaitExpiry n s
  | .drainLimitExpiry n => Sys2Proof.Machine.execDrainLimitExpiry n s
  | .exchangeDue n => Sys2Proof.Machine.execExchangeDue n s
  | .replyLimitExpiry n => Sys2Proof.Machine.execReplyLimitExpiry n s
  | .holdoverLimitExpiry => Sys2Proof.Machine.execHoldoverLimitExpiry s
  | .sendEvent k => Sys2Proof.Machine.execSendEvent k s
  | .panelEvent k => Sys2Proof.Machine.execPanelEvent k s
  | .pulseEnd line => Sys2Proof.Machine.execPulseEnd line s
  | .trigEdge n edge => Sys2Proof.Machine.execTrigEdge n edge s
  | .triginEdge edge => Sys2Proof.Machine.execTriginEdge edge s
  | .holdExpiry stream egress => Sys2Proof.Machine.execHoldExpiry stream egress s
  | .agingTimerExpiry => Sys2Proof.Machine.execAgingTimerExpiry s
  | .routeWriteStart => Sys2Proof.Machine.execRouteWriteStart s
  | .routeWriteComplete => Sys2Proof.Machine.execRouteWriteComplete s
  | .agingSweepStart => Sys2Proof.Machine.execAgingSweepStart s
  | .agingSweepComplete => Sys2Proof.Machine.execAgingSweepComplete s
  | .rcpReadTransaction part => Sys2Proof.Machine.execRcpReadTransaction part s
  | .rcpTransactionDiscarded bytes => Sys2Proof.Machine.execRcpTransactionDiscarded bytes s
  | .badkind q kind => Sys2Proof.Machine.execBadkind q kind s
  | .linkRead q => Sys2Proof.Machine.execLinkRead q s
  | .linkEnable q => Sys2Proof.Machine.execLinkEnable q s
  | .linkRetrain q => Sys2Proof.Machine.execLinkRetrain q s
  | .linkMarginStart q => Sys2Proof.Machine.execLinkMarginStart q s
  | .linkMarginCancel q => Sys2Proof.Machine.execLinkMarginCancel q s
  | .marginResult q => Sys2Proof.Machine.execMarginResult q s
  | .rosterRead q => Sys2Proof.Machine.execRosterRead q s
  | .frameAdmit q => Sys2Proof.Machine.execFrameAdmit q s
  | .frameRelease q => Sys2Proof.Machine.execFrameRelease q s
  | .frameRestore q => Sys2Proof.Machine.execFrameRestore q s
  | .frameEvict q => Sys2Proof.Machine.execFrameEvict q s
  | .rosterConfig q => Sys2Proof.Machine.execRosterConfig q s
  | .lineRead q => Sys2Proof.Machine.execLineRead q s
  | .lineWrite q => Sys2Proof.Machine.execLineWrite q s
  | .lineMode q => Sys2Proof.Machine.execLineMode q s
  | .lineHoldPreload q => Sys2Proof.Machine.execLineHoldPreload q s
  | .lineHoldSample q => Sys2Proof.Machine.execLineHoldSample q s
  | .timeRead q => Sys2Proof.Machine.execTimeRead q s
  | .timeSource q => Sys2Proof.Machine.execTimeSource q s
  | .timeConfig q => Sys2Proof.Machine.execTimeConfig q s
  | .syncRead q => Sys2Proof.Machine.execSyncRead q s
  | .trigArm q => Sys2Proof.Machine.execTrigArm q s
  | .trigArmAny q => Sys2Proof.Machine.execTrigArmAny q s
  | .trigCancel q => Sys2Proof.Machine.execTrigCancel q s
  | .trigRelease q => Sys2Proof.Machine.execTrigRelease q s
  | .trigRead q => Sys2Proof.Machine.execTrigRead q s
  | .trigConfig q => Sys2Proof.Machine.execTrigConfig q s
  | .capturePeek q => Sys2Proof.Machine.execCapturePeek q s
  | .capturePop q => Sys2Proof.Machine.execCapturePop q s
  | .routeSet q => Sys2Proof.Machine.execRouteSet q s
  | .routeClear q => Sys2Proof.Machine.execRouteClear q s
  | .routeRead q => Sys2Proof.Machine.execRouteRead q s
  | .routeFirst q => Sys2Proof.Machine.execRouteFirst q s
  | .routeNext q => Sys2Proof.Machine.execRouteNext q s
  | .streamConfig q => Sys2Proof.Machine.execStreamConfig q s
  | .accessSetWrite q => Sys2Proof.Machine.execAccessSetWrite q s
  | .accessSetEmpty q => Sys2Proof.Machine.execAccessSetEmpty q s
  | .accessRead q => Sys2Proof.Machine.execAccessRead q s
  | .counterRead q => Sys2Proof.Machine.execCounterRead q s
  | .counterReadClear q => Sys2Proof.Machine.execCounterReadClear q s
  | .noticeRead q => Sys2Proof.Machine.execNoticeRead q s
  | .noticeMask q => Sys2Proof.Machine.execNoticeMask q s
  | .hubStatus q => Sys2Proof.Machine.execHubStatus q s
  | .hubReset q => Sys2Proof.Machine.execHubReset q s
  | .symbolError n lane => Sys2Proof.Machine.execSymbolError n lane s

end Sys2Proof.Machine
end

