-- ==== Sys2Proof/Machine/Idle.lean ====
section
/-! DEFINITION. What the KL6 does while no command waits: its own clocks run on, and the first of its timers to end does
so (log 2). The training and recovery limits are not among them: their outcome needs the lanes aligned at that moment,
which only a command tells. -/

namespace Sys2Proof.Machine

/-- A timer that runs: the oscillator time left on it and the command that says it has ended. -/
abbrev Timer := Nat × Instr

/-- The timer that ends at an oscillator moment. -/
def oscTimer (s : State) (moment : Option Nat) (c : Instr) : List Timer :=
  match moment with
  | some t => [(t - s.osc, c)]
  | none => []

/-- The timer that ends when the rack time reaches a target; none if it will not. -/
def rackTimer (s : State) (target : Option Nat) (c : Instr) : List Timer :=
  match target.bind fun t => oscUntil t s with
  | some dt => [(dt, c)]
  | none => []

/-- The timers of link `n`. -/
def linkTimers (s : State) (n : Link) : List Timer :=
  oscTimer s ((s.margin n).probe.map (·.dwellEnds)) (.dwellEnd n)
    ++ oscTimer s (s.entry n).identWait (.identityWaitExpiry n)
    ++ oscTimer s (s.entry n).drainEnds (.drainLimitExpiry n)
    ++ oscTimer s ((s.sync n).schedule.map (·.nextDue)) (.exchangeDue n)
    ++ oscTimer s ((s.sync n).exchange.bind (·.limit)) (.replyLimitExpiry n)
    ++ oscTimer s (s.line n).pulse (.pulseEnd (.trig n))

/-- The send event and the panel event of trigger entry `i`. -/
def trigTimers (s : State) (i : TrigIx) : List Timer :=
  let e := s.trig i
  rackTimer s (if e.state = .armed then some (e.compare.toNat - s.lead) else none) (.sendEvent i)
    ++ rackTimer s (e.pulse.map (·.compare.toNat)) (.panelEvent i)

/-- Every running timer. -/
def timers (s : State) : List Timer :=
  allLinks.flatMap (linkTimers s)
    ++ allTrigs.flatMap (trigTimers s)
    ++ s.holds.flatMap (fun h => rackTimer s (some h.expiry.toNat) (.holdExpiry h.stream h.egress))
    ++ oscTimer s (s.tb.holdoverSince.map (· + s.tb.holdoverLimit * secondNs)) .holdoverLimitExpiry
    ++ oscTimer s s.panel.trigoutPulse (.pulseEnd .trigout)
    ++ oscTimer s s.agingEnds .agingTimerExpiry

/-- The timer with the least time left, the first of the list among equals. -/
def firstTimer : List Timer → Option Timer
  | [] => none
  | t :: rest =>
    match firstTimer rest with
    | none => some t
    | some u => if u.1 < t.1 then some u else some t

/-- One idle step: the first timer ends, if it does within `idleNs`; otherwise that much time passes. -/
def idle (s : State) : Outcome :=
  match firstTimer (timers s) with
  | some (dt, c) => if dt ≤ s.idleNs then exec c s else .next (advance s.idleNs s)
  | none => .next (advance s.idleNs s)

end Sys2Proof.Machine
end

