-- ==== Sys2Proof/Safety.lean ====
section
/-! DEFINITION. The vocabulary of the statements: frames (what a command leaves alone), the laws that every step keeps, and
the course of a request. -/

namespace Sys2Proof.Machine

/-! ### Frames -/

/-- A port without its arbiter: its state, setting, lanes, counts, limit and input. -/
def LinkPort.service (p : LinkPort) : LinkPort :=
  { p with waitSync := [], trigHead := none, waitTrig := [], waitHold := [], waitCtrl := [], tx := none,
           lastSent := none }

/-- A client without its pending set. -/
def Client.standing (c : Client) : Client := { c with news := 0 }

/-- The lines of a link without their pulse. -/
def LinkLines.settings (l : LinkLines) : LinkLines := { l with pulse := none }

/-- The parts of the state: its fields; `service`, the ports without their arbiters; `flags`, the clients without their
pending sets; `settings`, the lines of the links without their pulses. -/
inductive Part where
  | pending | osc | idleNs | resetAsserted | rack | frac | fracRem | tb
  | syncs | ports | counters | initDrop | captureOverflow | margins | roster | admitMinSteps
  | drainLimitMs | lines | panel | trigs | captures | captureCount | lead | routes
  | writing | waiting | ready | agingEnds | agingInterval | highMark | lowMark | holdTime
  | pool | egress | holds | access | clients | outstanding | rcp
  | service | flags | settings
  deriving DecidableEq

/-- Two states agree on a part. -/
def Part.same (s t : State) : Part → Prop
  | .pending => t.pending = s.pending
  | .osc => t.osc = s.osc
  | .idleNs => t.idleNs = s.idleNs
  | .resetAsserted => t.resetAsserted = s.resetAsserted
  | .rack => t.rack = s.rack
  | .frac => t.frac = s.frac
  | .fracRem => t.fracRem = s.fracRem
  | .tb => t.tb = s.tb
  | .syncs => t.syncs = s.syncs
  | .ports => t.ports = s.ports
  | .counters => t.counters = s.counters
  | .initDrop => t.initDrop = s.initDrop
  | .captureOverflow => t.captureOverflow = s.captureOverflow
  | .margins => t.margins = s.margins
  | .roster => t.roster = s.roster
  | .admitMinSteps => t.admitMinSteps = s.admitMinSteps
  | .drainLimitMs => t.drainLimitMs = s.drainLimitMs
  | .lines => t.lines = s.lines
  | .panel => t.panel = s.panel
  | .trigs => t.trigs = s.trigs
  | .captures => t.captures = s.captures
  | .captureCount => t.captureCount = s.captureCount
  | .lead => t.lead = s.lead
  | .routes => t.routes = s.routes
  | .writing => t.writing = s.writing
  | .waiting => t.waiting = s.waiting
  | .ready => t.ready = s.ready
  | .agingEnds => t.agingEnds = s.agingEnds
  | .agingInterval => t.agingInterval = s.agingInterval
  | .highMark => t.highMark = s.highMark
  | .lowMark => t.lowMark = s.lowMark
  | .holdTime => t.holdTime = s.holdTime
  | .pool => t.pool = s.pool
  | .egress => t.egress = s.egress
  | .holds => t.holds = s.holds
  | .access => t.access = s.access
  | .clients => t.clients = s.clients
  | .outstanding => t.outstanding = s.outstanding
  | .rcp => t.rcp = s.rcp
  | .service => ∀ m, (t.port m).service = (s.port m).service
  | .flags => ∀ rq, (t.client rq).standing = (s.client rq).standing
  | .settings => ∀ m, (t.line m).settings = (s.line m).settings

/-- `t` is `s` but for the parts of `gs`. -/
def Within (gs : List Part) (s t : State) : Prop := ∀ x, x ∉ gs → x.same s t

/-- The clocks. -/
abbrev clocks : List Part := [.osc, .rack, .frac, .fracRem]

/-- What telling a requester of a notice may touch (R175, R176). -/
abbrev told : List Part := [.ports, .clients, .outstanding]

/-- What moving references of the Stream Switch may touch. -/
abbrev streamed : List Part := [.ports, .egress, .holds, .pool, .counters]

/-- What send and panel events may touch. -/
abbrev fired : List Part := [.ports, .clients, .outstanding, .counters, .lines, .panel, .trigs]

/-- What a capture may touch. -/
abbrev captured : List Part :=
  [.ports, .clients, .outstanding, .counters, .lines, .panel, .trigs, .captures, .captureOverflow, .captureCount]

/-- What a change of the source or of the runs may touch. -/
abbrev sourced : List Part := [.ports, .clients, .outstanding, .tb, .syncs]

/-- What a step of rack time may touch. -/
abbrev stepped : List Part :=
  [.ports, .clients, .outstanding, .counters, .lines, .panel, .trigs, .tb, .syncs, .rack, .holds]

/-- What the link-level reset may touch (Table 1.7 (1)). -/
abbrev wiped : List Part :=
  [.ports, .service, .egress, .pool, .counters, .holds, .clients, .flags, .outstanding, .tb, .syncs, .margins, .writing,
   .waiting]

/-- What a transition of a roster entry or of a port may touch. -/
abbrev moved : List Part :=
  [.ports, .service, .egress, .pool, .counters, .holds, .clients, .flags, .outstanding, .tb, .syncs, .margins, .writing,
   .waiting, .roster, .trigs, .routes, .lines]

/-- What taking and answering a request may touch, besides what the request itself does. -/
abbrev asked : List Part := [.ports, .service, .counters, .clients, .flags, .rcp]

/-- What the completion of a route write may touch. -/
abbrev written : List Part := [.routes, .holds, .ports, .clients, .flags, .outstanding, .rcp]

/-- What is kept per link is, on every link but `n`, as it was; a waiting cell may have joined a port's arbiter. -/
def Elsewhere (n : Link) (s t : State) : Prop :=
  ∀ m, m ≠ n →
    (t.port m).service = (s.port m).service ∧ t.entry m = s.entry m ∧ t.margin m = s.margin m
      ∧ t.line m = s.line m ∧ t.queues m = s.queues m

/-- A notice kind is pending for every requester. -/
def ToldAll (k : Notice) (t : State) : Prop := ∀ rq, (t.client rq).news &&& k.bit = k.bit

/-- The state in which the port of link `n` is after it has come to DOWN: TRAINING at once where the conditions of R2
hold. -/
def downOrTraining (n : Link) (failCount : Nat) (s : State) : LinkState :=
  if (s.line n).presentPin ∧ failCount < failBar ∧ (s.port n).activity ∧ s.resetAsserted = false then .training
  else .down

/-- What the transmitter of link `n` takes when it becomes free in UP: a waiting cell, or else a block (R12, R156). -/
def nextTransit (s : State) (n : Link) : Option Transit :=
  match takeWaiting (s.port n) with
  | some (c, _) => some (.cell c)
  | none => (chooseBlock (s.queues n)).map fun x => .block x.1

/-- Link `n` has left service: nothing queued, nothing waiting and nothing being sent (R14). -/
def Emptied (n : Link) (t : State) : Prop :=
  (t.queues n).expedite = [] ∧ (t.queues n).normal = [] ∧ (t.queues n).run = 0
    ∧ (t.port n).tx = none ∧ (t.port n).lanes = 0 ∧ (t.port n).waitSync = [] ∧ (t.port n).trigHead = none
    ∧ (t.port n).waitTrig = [] ∧ (t.port n).waitHold = [] ∧ (t.port n).waitCtrl = []

/-! ### The course of a request (R168, R169) -/

/-- A request can reach the Request Unit: an SPI transaction is made when no other is in progress (R170), and a CONTROL
cell is received in UP only (R7). -/
def Heard (q : Request) (s : State) : Prop :=
  match q.requester with
  | .rcp => s.rcp.reading = false
  | .frame n => (s.port n).state = .up

/-- What the arrival of a request leaves: its CONTROL cell is counted and ends the errored-cell run (R7). -/
def arrived (q : Request) (s : State) : State :=
  match q.requester with
  | .rcp => s
  | .frame n => (s.count n .cellsIn).modPort n fun p => { p with errRun := 0 }

/-- A request passes the checks of R168: no request of its requester is in progress, its kind is not one reserved to the
RCP, and the roster entry of a frame admits it. -/
def Taken (q : Request) (kind : Byte) (clear : Bool) (s : State) : Prop :=
  Heard q s ∧ s.busy q.requester = false ∧ refusedKind s q.requester kind clear = none

/-- A request taken is in progress while its block carries it out (R169). -/
def opened (q : Request) (s : State) : State := setBusy q.requester true (arrived q s)

/-- A request that its block answers at once, changing `arrived q s` into `t`. -/
def answered (q : Request) (kind : Byte) (status : Status) (results : List Byte) (t : State) : State :=
  answer q.requester q.tag kind status false results t

/-- The response to a request (Table 11.3 (2)), as it is offered to a frame. -/
def responseTo (q : Request) (kind : Byte) (status : Status) (results : List Byte) : Response :=
  { tag := q.tag, kind := kind, status := status, prevUnread := false, endFlag := false, results := results }

/-- A request has its response, and its in-progress flag is clear (R169). The response of the RCP stands in the response
buffer, and replaces one that was not read; while a read transaction is in progress it is held instead, and the request
stays in progress (R170). The response of Fn waits on link n, or is being sent, unless the link is no longer in service
(R171); where among the cells that wait is not said. -/
def Responded (q : Request) (kind : Byte) (status : Status) (results : List Byte) (s t : State) : Prop :=
  match q.requester with
  | .frame n =>
    t.busy (.frame n) = false
      ∧ (inService (t.port n).state = true →
          .control (responseTo q kind status results) ∈ (t.port n).waitCtrl
            ∨ (t.port n).tx = some (.cell (.ctrl (.control (responseTo q kind status results)))))
  | .rcp =>
    if s.rcp.reading then
      t.busy .rcp = s.busy .rcp ∧ t.rcp = { s.rcp with held := some (responseTo q kind status results) }
    else
      t.busy .rcp = false ∧ t.rcp.readMark = false
        ∧ t.rcp.buffer
            = some { responseTo q kind status results with prevUnread := s.rcp.buffer.isSome && !s.rcp.readMark }

/-- A request has its response (`Responded`), and that of Fn is the last cell of its category on link n, or is being
sent. It stands last after a NOTICE of the same step too: no rule gives that order, and it is the model's choice
(log 12). -/
def Replied (q : Request) (kind : Byte) (status : Status) (results : List Byte) (s t : State) : Prop :=
  Responded q kind status results s t
    ∧ ∀ n : Link, q.requester = .frame n → inService (t.port n).state = true →
        (t.port n).waitCtrl.getLast? = some (.control (responseTo q kind status results))
          ∨ (t.port n).tx = some (.cell (.ctrl (.control (responseTo q kind status results))))

/-- The request behind a command that is one of a known kind, its kind, and whether it is a COUNTER_READ with the clear
option (Table 11.4 (1)). -/
def requestOf : Instr → Option (Request × Byte × Bool)
  | .linkRead q => some (q, kindLinkRead, false)
  | .linkEnable q => some (q, kindLinkEnable, false)
  | .linkRetrain q => some (q, kindLinkRetrain, false)
  | .linkMarginStart q => some (q, kindLinkMargin, false)
  | .linkMarginCancel q => some (q, kindLinkMargin, false)
  | .marginResult q => some (q, kindMarginResult, false)
  | .rosterRead q => some (q, kindRosterRead, false)
  | .frameAdmit q => some (q, kindFrameAdmit, false)
  | .frameRelease q => some (q, kindFrameRelease, false)
  | .frameRestore q => some (q, kindFrameRestore, false)
  | .frameEvict q => some (q, kindFrameEvict, false)
  | .rosterConfig q => some (q, kindRosterConfig, false)
  | .lineRead q => some (q, kindLineRead, false)
  | .lineWrite q => some (q, kindLineWrite, false)
  | .lineMode q => some (q, kindLineMode, false)
  | .lineHoldPreload q => some (q, kindLineHold, false)
  | .lineHoldSample q => some (q, kindLineHold, false)
  | .timeRead q => some (q, kindTimeRead, false)
  | .timeSource q => some (q, kindTimeSource, false)
  | .timeConfig q => some (q, kindTimeConfig, false)
  | .syncRead q => some (q, kindSyncRead, false)
  | .trigArm q => some (q, kindTrigArm, false)
  | .trigArmAny q => some (q, kindTrigArm, false)
  | .trigCancel q => some (q, kindTrigCancel, false)
  | .trigRelease q => some (q, kindTrigRelease, false)
  | .trigRead q => some (q, kindTrigRead, false)
  | .trigConfig q => some (q, kindTrigConfig, false)
  | .capturePeek q => some (q, kindCapturePeek, false)
  | .capturePop q => some (q, kindCapturePop, false)
  | .routeSet q => some (q, kindRouteSet, false)
  | .routeClear q => some (q, kindRouteClear, false)
  | .routeRead q => some (q, kindRouteRead, false)
  | .routeFirst q => some (q, kindRouteFirst, false)
  | .routeNext q => some (q, kindRouteNext, false)
  | .streamConfig q => some (q, kindStreamConfig, false)
  | .accessSetWrite q => some (q, kindAccessSet, false)
  | .accessSetEmpty q => some (q, kindAccessSet, false)
  | .accessRead q => some (q, kindAccessRead, false)
  | .counterRead q => some (q, kindCounterRead, false)
  | .counterReadClear q => some (q, kindCounterRead, true)
  | .noticeRead q => some (q, kindNoticeRead, false)
  | .noticeMask q => some (q, kindNoticeMask, false)
  | .hubStatus q => some (q, kindHubStatus, false)
  | .hubReset q => some (q, kindHubReset, false)
  | .badkind _ _ => none
  | .resetAssert => none
  | .resetRelease => none
  | .switchInitialisationComplete => none
  | .presentFall _ _ => none
  | .presentRise _ => none
  | .swapRequest _ _ => none
  | .trainingActivity _ _ => none
  | .trainingAllAligned _ => none
  | .trainingLimitExpiry _ _ => none
  | .alignmentLost _ _ => none
  | .recoveryAllAligned _ => none
  | .recoveryLimitExpiry _ _ => none
  | .cellErrored _ _ => none
  | .unknownKindCell _ => none
  | .sampleCellReceived _ _ => none
  | .syncReplyReceived _ _ => none
  | .triggerCellReceived _ _ => none
  | .identReceived _ _ => none
  | .malformedControlCell _ _ => none
  | .cellTransmissionComplete _ => none
  | .dwellEnd _ => none
  | .identityWaitExpiry _ => none
  | .drainLimitExpiry _ => none
  | .exchangeDue _ => none
  | .replyLimitExpiry _ => none
  | .holdoverLimitExpiry => none
  | .sendEvent _ => none
  | .panelEvent _ => none
  | .pulseEnd _ => none
  | .trigEdge _ _ => none
  | .triginEdge _ => none
  | .holdExpiry _ _ => none
  | .agingTimerExpiry => none
  | .routeWriteStart => none
  | .routeWriteComplete => none
  | .agingSweepStart => none
  | .agingSweepComplete => none
  | .rcpReadTransaction _ => none
  | .rcpTransactionDiscarded _ => none
  | .symbolError _ _ => none

/-- The record a request arrives as (Table 11.3 (1)). -/
def requestRecord (q : Request) (kind : Byte) : List Byte := [q.tag, kind] ++ enc16 q.args.length ++ q.args

/-! ### Laws that every step keeps -/

/-- The capture queue, the egress queues, their EXPEDITE runs and the hold list stay within their capacities (R132,
R155, R156, R160). -/
def Bounded (s : State) : Prop :=
  s.captures.length ≤ captureCapacity ∧ s.holds.length ≤ holdCapacity
    ∧ ∀ n, (s.queues n).expedite.length ≤ queueCapacity ∧ (s.queues n).normal.length ≤ queueCapacity
      ∧ (s.queues n).run ≤ expediteRunMax

/-- An entry of the access table has its first index not above its last, and both within its space (R172). -/
def accessLaw (e : AccessEntry) : Prop := e.first ≤ e.last ∧ (e.space = .all ∨ e.last ≤ spaceMax e.space)

/-- Every setting is in its range (R59, R100, R118, R149), the priority list names each link once (R79), T and I are
within 100,000 ppb (R96), and every access table entry keeps its law (R172). -/
def InRange (s : State) : Prop :=
  s.tb.k ≤ 4 ∧ (20 ≤ s.tb.window ∧ s.tb.window ≤ 1000) ∧ (1000 ≤ s.tb.stepThreshold ∧ s.tb.stepThreshold ≤ 1000000)
    ∧ (1 ≤ s.tb.holdoverLimit ∧ s.tb.holdoverLimit ≤ 3600)
    ∧ (-trimBound ≤ s.tb.freeTrim ∧ s.tb.freeTrim ≤ trimBound)
    ∧ (-trimBound ≤ s.tb.trim ∧ s.tb.trim ≤ trimBound) ∧ (-trimBound ≤ s.tb.integ ∧ s.tb.integ ≤ trimBound)
    ∧ (s.tb.priority.Nodup ∧ s.tb.priority.length = 6)
    ∧ s.admitMinSteps ≤ 31 ∧ (1 ≤ s.drainLimitMs ∧ s.drainLimitMs ≤ 1000) ∧ s.lead ≤ leadMax
    ∧ (1 ≤ s.agingInterval ∧ s.agingInterval ≤ 255) ∧ (4 ≤ s.highMark ∧ s.highMark ≤ 24) ∧ s.lowMark < s.highMark
    ∧ (1 ≤ s.holdTime ∧ s.holdTime ≤ 65535) ∧ (∀ i : Fin 8, ∀ e ∈ s.access[i], accessLaw e)

/-- A port (R2, R8, R12 to R14): its counts are in range, it has an active lane set and waiting cells only in service,
it sends only in UP, no SYNC cell waits in RECOVERY, and in UP no cell waits for a free transmitter. -/
def portLaw (p : LinkPort) : Prop :=
  p.failCount ≤ failBar ∧ p.errRun < errorsToRecovery
    ∧ (inService p.state = false →
        p.lanes = 0 ∧ p.waitSync = [] ∧ p.trigHead = none ∧ p.waitTrig = [] ∧ p.waitHold = [] ∧ p.waitCtrl = [])
    ∧ (p.state ≠ .up → p.tx = none) ∧ (p.state = .recovery → p.waitSync = [])
    ∧ (p.state = .up → p.tx = none → takeWaiting p = none)

/-- Every port keeps its law, and sends idle fill only when its egress queues are empty as well (R12). -/
def PortLaw (s : State) : Prop :=
  ∀ n, portLaw (s.port n)
    ∧ ((s.port n).state = .up → (s.port n).tx = none → (s.queues n).expedite = [] ∧ (s.queues n).normal = [])

/-- The states of an entry whose frame is cabled in and on its way to service, or in it (Table 3.3 (1)). -/
def onLinkUp (st : RosterState) : Bool :=
  match st with
  | .probing => true
  | .identifying => true
  | .pending => true
  | .active => true
  | .draining => true
  | .empty => false
  | .detected => false
  | .quiesced => false
  | .faulted => false

/-- A roster entry and the state of its port (R1, R38, R39, R42, R45, R48, R51, R52). -/
def entryLaw (e : RosterEntry) (st : LinkState) : Prop :=
  (e.state = .empty → e.identity = none ∧ e.admittedAt = none)
    ∧ (e.identWait.isSome ↔ e.state = .identifying) ∧ (e.drainEnds.isSome ↔ e.state = .draining)
    ∧ (e.swapPending → e.state = .detected ∨ e.state = .probing ∨ e.state = .identifying ∨ e.state = .pending)
    ∧ (e.state = .pending ∨ e.state = .active ∨ e.state = .draining → e.identity.isSome)
    ∧ (onLinkUp e.state → inService st) ∧ (e.state = .quiesced → st = .off)

/-- Every entry keeps its law. -/
def RosterLaw (s : State) : Prop := ∀ n, entryLaw (s.entry n) (s.port n).state

/-- While a probe is in progress the link is UP, the probed lane is in its active lane set, and the entry is in a state
in which the probe may run; an admission sequence has one of its probes in progress and goes on to lanes of the set
(R22, R27, R31). -/
def ProbeLaw (s : State) : Prop :=
  ∀ n,
    (∀ p ∈ (s.margin n).probe,
      (s.port n).state = .up ∧ (s.port n).lanes.getLsbD p.lane ∧ probeMayRun p.starter (s.entry n).state)
    ∧ ∀ a ∈ (s.margin n).admission,
        (∃ p ∈ (s.margin n).probe, p.starter = .admission) ∧ ∀ l ∈ a.later, (s.port n).lanes.getLsbD l

/-- The source is the best candidate whenever there is a candidate, and is no link otherwise (R79 to R81). -/
def SourceLaw (s : State) : Prop :=
  match bestCandidate s with
  | some n => s.tb.source = .link n
  | none => ∀ n, s.tb.source ≠ .link n

/-- A link has an exchange schedule just while it is eligible, and only an eligible link that is not the source has a
follower state other than UNTIMED (R87, R109, R110). -/
def SyncLaw (s : State) : Prop :=
  ∀ n, (s.sync n).schedule.isSome = eligible s n
    ∧ ((s.sync n).follower ≠ .untimed → eligible s n ∧ s.tb.source ≠ .link n)

/-- A trigger entry that waits or is armed has an owner, and a frame that owns it is ACTIVE (R119, R128). Each link of
a pending pulse is ACTIVE, or its frame has left ACTIVE since the send event and the pulse reaches it no more (R122,
R123). -/
def TrigLaw (s : State) : Prop :=
  ∀ i, ((s.trig i).state = .waiting ∨ (s.trig i).state = .armed →
      (s.trig i).owner ≠ none ∧ ∀ n, (s.trig i).owner = some (.frame n) → (s.entry n).state = .active)
    ∧ ∀ p ∈ (s.trig i).pulse, ∀ n : Link, p.links.getLsbD n → (s.entry n).state = .active ∨ p.left.getLsbD n

/-- The fields that a route write gives an entry (R138). -/
def specLaw (r : RouteSpec) : Prop := r.stream ≠ 0 ∧ r.egress.getLsbD r.source = false

/-- What waits for the table write unit is a write that its checks let through (R138). -/
def waitingLaw (w : WaitingWrite) : Prop :=
  match w with
  | .set _ r => specLaw r
  | .clear _ _ => True
  | .sweep => True

/-- The write in progress still finds the table as it was when the write was decided (R139, R141). -/
def activeLaw (s : State) (w : ActiveWrite) : Prop :=
  match w with
  | .replace _ r i => specLaw r ∧ ∃ old, s.route i = some old ∧ old.stream = r.stream
  | .create _ r i => specLaw r ∧ s.route i = none ∧ ∀ j, ∀ old ∈ s.route j, old.stream ≠ r.stream
  | .clear _ i => (s.route i).isSome
  | .sweep _ => True

/-- A valid entry has a stream id other than 0 and an egress set without its source link, and a stream has at most one
valid entry (R136, R138). -/
def RouteLaw (s : State) : Prop :=
  (∀ i, ∀ r ∈ s.route i, r.stream ≠ 0 ∧ r.egress.getLsbD r.source = false)
    ∧ (∀ i j, ∀ r ∈ s.route i, ∀ u ∈ s.route j, r.stream = u.stream → i = j)
    ∧ (∀ w ∈ s.waiting, waitingLaw w) ∧ (∀ w ∈ s.writing, activeLaw s w)

/-- The hold list has at most one entry for a stream and an egress link, and a route of that source link to that egress
link stands behind each (R140, R160, R161). -/
def HoldLaw (s : State) : Prop :=
  (s.holds.map fun h => (h.stream, h.egress)).Nodup
    ∧ ∀ h ∈ s.holds, ∃ i, ∃ r ∈ s.route i,
        r.stream = h.stream ∧ r.source = h.source ∧ r.egress.getLsbD h.egress

/-- The references to slot `i` that link `n` holds: in its queues, and in transmission. -/
def linkRefs (s : State) (i : SlotIx) (n : Link) : Nat :=
  (s.queues n).expedite.count i + (s.queues n).normal.count i + (if sendingBlock (s.port n) = some i then 1 else 0)

/-- The references to slot `i` on all links. -/
def slotRefs (s : State) (i : SlotIx) : Nat := (allLinks.map (linkRefs s i)).sum

/-- A slot's reference count is the number of references to it, and a slot without references is free (R152). -/
def RefLaw (s : State) : Prop :=
  ∀ i, match s.slot i with
    | some sl => 1 ≤ sl.refs ∧ sl.refs = slotRefs s i
    | none => slotRefs s i = 0

/-- A write whose requester still waits for its response. -/
def liveWaiting (rq : Requester) : WaitingWrite → Bool
  | .set w _ => !w.orphaned && decide (w.requester = rq)
  | .clear w _ => !w.orphaned && decide (w.requester = rq)
  | .sweep => false

/-- The same of the write in progress. -/
def liveActive (rq : Requester) : ActiveWrite → Bool
  | .replace w _ _ => !w.orphaned && decide (w.requester = rq)
  | .create w _ _ => !w.orphaned && decide (w.requester = rq)
  | .clear w _ => !w.orphaned && decide (w.requester = rq)
  | .sweep _ => false

/-- How many writes of a requester wait or run for a request that is in progress. -/
def liveWrites (s : State) (rq : Requester) : Nat :=
  s.waiting.countP (liveWaiting rq) + (s.writing.toList.countP (liveActive rq))

/-- The response to a requester that is held until a read transaction ends (R170). -/
def heldBack (s : State) (rq : Requester) : Nat := if rq = .rcp ∧ s.rcp.held.isSome then 1 else 0

/-- Between commands a request is in progress just while its one route write waits or runs, or its response is held
(R137, R169); a response is held only during a read transaction (R170). -/
def BusyLaw (s : State) : Prop :=
  (∀ rq, liveWrites s rq + heldBack s rq = if s.busy rq then 1 else 0) ∧ (s.rcp.held.isSome → s.rcp.reading = true)

/-- Every law. -/
def Lawful (s : State) : Prop :=
  Bounded s ∧ InRange s ∧ PortLaw s ∧ RosterLaw s ∧ ProbeLaw s ∧ SourceLaw s ∧ SyncLaw s ∧ TrigLaw s ∧ RouteLaw s
    ∧ HoldLaw s ∧ RefLaw s ∧ BusyLaw s

end Sys2Proof.Machine
end

