-- ==== Sys2Proof/Certificates/Slice0/Obligations.lean ====
section
/-! DEFINITION. The statements about the model, for the provers. Each says which rules of spec/ it rests on. -/

open Sys2Proof Sys2Proof.Machine

/-! ### The block as a machine -/

/-- O1. For every command and state: a step of a state with that command at the front of its queue is exec of the
command on the state with the queue's rest. The queue is the model's own (log 2). -/
def Obligations.StepTakesFrontCommand : Prop :=
  ∀ (c : Instr) (rest : List Instr) (s : State), s.pending = c :: rest → step s = exec c { s with pending := rest }

/-- O2. Every step answers a next state and takes exactly one waiting command off the queue; no command adds or removes
one. On an empty queue the first of the running timers to end does so if it ends within the idle interval, and
otherwise that much time passes. The queue and the idle step are the model's choice (log 2). -/
def Obligations.StepsAlwaysGoOn : Prop :=
  (∀ s : State, ∃ t, step s = .next t ∧ t.pending = s.pending.tail)
    ∧ (∀ s : State, s.pending = [] → (∀ x ∈ timers s, s.idleNs < x.1) → step s = .next (advance s.idleNs s))
    ∧ ∀ s : State, s.pending = [] → (∃ x ∈ timers s, x.1 ≤ s.idleNs) →
        ∃ x ∈ timers s, (∀ y ∈ timers s, x.1 ≤ y.1) ∧ x.1 ≤ s.idleNs ∧ step s = exec x.2 s

/-- O3. The state after reset keeps each of the twelve laws whose preservation the next statements claim. Rests on the
values after reset (R20, R34, R60, R74, R101, R116, R135, R151, R167, R180) and on the model's choice of the moment and
the pin levels (log 9). -/
def Obligations.ResetKeepsEveryLaw : Prop :=
  Lawful State.reset

/-! ### Laws that every step keeps -/

/-- O4. For every state: if the capture queue, the egress queues, their EXPEDITE runs and the hold list are within
their capacities, they are after any step that goes on (R132, R155, R156, R160). If every setting is in its range, the
priority list names each link once, T and I are within 100,000 ppb, and each access table entry has its first index not
above its last and within its space, they are after the step (R59, R79, R96, R100, R118, R149, R172); for the low
watermark under a lowered high watermark this is the model's choice (log 21), and for an entry of the space ALL that it
has no upper bound (log 27). -/
def Obligations.CapacitiesAndRangesAreKept : Prop :=
  (∀ s t : State, Bounded s → step s = .next t → Bounded t)
    ∧ ∀ s t : State, InRange s → step s = .next t → InRange t

/-- O5. For every state in which each port has its counts in range, an active lane set and waiting cells only while UP
or in RECOVERY, a transmission only in UP, no waiting SYNC cell in RECOVERY, and in UP a free transmitter only where no
cell waits and both egress queues are empty: so has each port after any step (R2, R6, R8, R9, R12 to R14). -/
def Obligations.PortsKeepTheirLaw : Prop :=
  ∀ s t : State, PortLaw s → step s = .next t → PortLaw t

/-- O6. For every state in which each roster entry agrees with its port (on its way to service or in it only while the
link is up, QUIESCED only with the port OFF), runs its identity wait just in IDENTIFYING and its drain limit just in
DRAINING, holds an identity from PENDING on and none in EMPTY, and has the swap-pending flag only before ACTIVE: so
does each entry after any step (R1, R38, R39, R41, R42, R45, R48, R51, R52), while probes run only where they may, which
O7 keeps. -/
def Obligations.RosterKeepsItsLaw : Prop :=
  ∀ s t : State, RosterLaw s → ProbeLaw s → step s = .next t → RosterLaw t

/-- O7. For every state in which each probe in progress is on a link that is UP, on a lane of its active lane set, and
allowed by the roster entry, and each admission sequence has one of its probes in progress and goes on to lanes of the
set: the same holds after any step (R22, R26, R27, R31, R33). -/
def Obligations.ProbesRunOnlyWhereTheyMay : Prop :=
  ∀ s t : State, ProbeLaw s → step s = .next t → ProbeLaw t

/-- O8. For every state in which the timebase source is the best candidate, or no link while there is no candidate: so
it is after any step (R79 to R81). With a list that names no link twice, the best candidate has the highest reported
grade of all candidates and stands before every other of that grade in the priority list (R78, R79). -/
def Obligations.SourceIsTheBestCandidate : Prop :=
  (∀ s t : State, SourceLaw s → step s = .next t → SourceLaw t)
    ∧ ∀ (s : State) (n : Link), s.tb.priority.Nodup →
      (bestCandidate s = some n ↔
        ∃ before after, s.tb.priority = before ++ n :: after ∧ candidate s n = true
          ∧ (∀ m ∈ before, candidate s m = true → reportedGrade s m < reportedGrade s n)
          ∧ ∀ m ∈ after, candidate s m = true → reportedGrade s m ≤ reportedGrade s n)

/-- O9. For every state in which a link has a running exchange schedule just while it is eligible, and a follower state
other than UNTIMED only while it is eligible and not the source: the same holds after any step (R87, R103, R109, R110).
-/
def Obligations.SyncFollowsEligibility : Prop :=
  ∀ s t : State, SyncLaw s → step s = .next t → SyncLaw t

/-- O10. For every state in which each WAITING or ARMED trigger entry has an owner, which is ACTIVE if it is a frame,
and each link of a pending pulse is ACTIVE or is one whose frame has left ACTIVE since the send event: so it is after
any step (R119, R122, R123, R128). -/
def Obligations.ArmedTriggersHaveServingOwners : Prop :=
  ∀ s t : State, TrigLaw s → step s = .next t → TrigLaw t

/-- O11. For every state in which each valid entry has a stream id other than 0 and an egress set without its source
link, a stream has at most one valid entry, and the waiting and running writes agree with the table: so it is after any
step (R136, R138, R139, R141). With that, a hold list without duplicates in which a route stands behind each entry
stays so (R140, R160, R161). -/
def Obligations.RoutesAndHoldsKeepTheirLaws : Prop :=
  (∀ s t : State, RouteLaw s → step s = .next t → RouteLaw t)
    ∧ ∀ s t : State, RouteLaw s → HoldLaw s → step s = .next t → HoldLaw t

/-- O12. For every state in which the reference count of each pool slot is the number of its references in egress
queues and in transmission, and a slot without references is free: so it is after any step (R152, R157, R158). -/
def Obligations.ReferenceCountsAreExact : Prop :=
  ∀ s t : State, RefLaw s → step s = .next t → RefLaw t

/-- O13. For every state that keeps the route table's law, and in which each requester's in-progress flag is set just
while one route write of its own, not orphaned, waits or runs, or its response is held by a read transaction in
progress: the same holds after any step (R14, R137, R169, R170). That the flag stays set while a read transaction holds
the response is the model's reading of R169 and R170 (log 23). -/
def Obligations.RequestsInProgressAreRouteWrites : Prop :=
  ∀ s t : State, RouteLaw s → BusyLaw s → step s = .next t → BusyLaw t

/-! ### Rules of the whole machine -/

/-- O14. Under every command but RESET_ASSERT, RESET_RELEASE, HUB_RESET and COUNTER_READ with the clear option, no
counter of any link's set falls (R19, R21, R166, R174). -/
def Obligations.CountersOnlyGrow : Prop :=
  ∀ (c : Instr) (s t : State),
    c ≠ .resetAssert → c ≠ .resetRelease → (∀ q, c ≠ .hubReset q) → (∀ q, c ≠ .counterReadClear q) →
    exec c s = .next t → ∀ n k, s.counter n k ≤ t.counter n k

/-- O15. Under every command but RESET_ASSERT and RESET_RELEASE, the epoch of each entry is unchanged, or it grows by 1
(from 65535 to 0), the entry was not ACTIVE before, and it takes the rack time of that moment as admitted-at (R42). -/
def Obligations.EpochMarksAdmissions : Prop :=
  ∀ (c : Instr) (s t : State), c ≠ .resetAssert → c ≠ .resetRelease → exec c s = .next t →
    ∀ n, (t.entry n).epoch = (s.entry n).epoch
      ∨ ((t.entry n).epoch = (s.entry n).epoch + 1 ∧ (t.entry n).admittedAt = some s.rack
          ∧ (s.entry n).state ≠ .active)

/-- O16. A request taken while one of its requester is in progress is answered BUSY; then one of a kind reserved to the
RCP is answered NOACCESS and one that the roster state does not admit STATE; each changes nothing but the response and
the count of its CONTROL cell. A request from a link that is not UP is not received, nor one of the RCP within another
SPI transaction, which cannot happen (log 10). BADKIND answers an unknown kind BADKIND, or BUSY while a request is in
progress (R7, R53, R168, R169, R171). -/
def Obligations.RefusedRequestsChangeNothing : Prop :=
  (∀ (c : Instr) (q : Request) (kind : Byte) (clear : Bool) (s : State),
      requestOf c = some (q, kind, clear) → Heard q s → s.busy q.requester = true →
      exec c s = .next (answered q kind .busy [] (arrived q s)))
    ∧ (∀ (c : Instr) (q : Request) (kind : Byte) (clear : Bool) (st : Status) (s : State),
      requestOf c = some (q, kind, clear) → Heard q s → s.busy q.requester = false →
      refusedKind s q.requester kind clear = some st →
      exec c s = .next (answered q kind st [] (arrived q s)))
    ∧ (∀ (c : Instr) (q : Request) (kind : Byte) (clear : Bool) (s : State),
      requestOf c = some (q, kind, clear) → ¬ Heard q s → exec c s = .next s)
    ∧ ∀ (q : Request) (kind : Byte) (s : State), Heard q s →
      exec (.badkind q kind) s = .next (answered q kind (if s.busy q.requester then .busy else .badKind) [] (arrived q s))

/-! ### Bytes -/

/-- Cells one after the other on the cable, each with the lanes that are marked in it (R8, R181). -/
def streamOf (cells : List Segment) : List RxSymbol :=
  cells.flatMap fun g => (cellSymbols g.bytes).map fun x => { symbol := x, marked := g.marked }

/-- O17. For every kind, flags, stream, sequence, stamp and body of at most 1,028 bytes: framing the bytes of the cell,
with any bytes after them, gives a good cell of that kind with those fields. Bytes are framed as an errored cell just
where the length field is above 1,028, the length is not complete, or the CRC does not match. A received stream is cut
at its start-of-cell symbols: each cell gives the one command of its bytes and its marked lanes, in order, and none of
what came before the first symbol; a cell that the next symbol cuts short gives its errored cell, and the last one gives
nothing until its length is complete, which is the model's choice for a length above 1,028 (log 29) (R7, R8, R181,
R182). -/
def Obligations.FramedCellsAreReadBack : Prop :=
  (∀ (kind flags : Byte) (stream sequence : BitVec 16) (stamp : Time) (body rest : List Byte), body.length ≤ maxBody →
      frameCell (cellBytes kind flags stream sequence stamp body ++ rest)
        = .good kind { flags := flags, stream := stream, sequence := sequence, stamp := stamp, body := body })
    ∧ (∀ (bs : List Byte) (len : Nat), len = beNat ((bs.drop 2).take 2) →
      (frameCell bs = .errored ↔
        1028 < len ∨ bs.length < 16 + len + 4 ∨ (bs.drop (16 + len)).take 4 ≠ crcBytes (bs.take (16 + len))))
    ∧ ∀ (n : Link) (early : List RxSymbol) (cells : List Segment) (last : Segment),
      (∀ x ∈ early, x.symbol ≠ .startOfCell) →
      cableCommands n (early ++ streamOf (cells ++ [last]))
        = (cells.map fun g => cellCommand n g.marked g.bytes)
          ++ if beNat ((last.bytes.drop 2).take 2) ≤ 1028 ∧ 20 + beNat ((last.bytes.drop 2).take 2) ≤ last.bytes.length then
              [cellCommand n last.marked last.bytes]
            else []

/-- O18. For every well-formed request command: its record, with any bytes after it, is decoded to that command; as a
CONTROL body it is not malformed; and from the RCP the SPI transaction of type 01H that holds it is that command (R168,
R183, R184, R185). -/
def Obligations.RequestRecordsAreReadBack : Prop :=
  ∀ (c : Instr) (q : Request) (kind : Byte) (clear : Bool) (rest : List Byte),
    requestOf c = some (q, kind, clear) → c.wellFormed = true →
    requestCommand q.requester (requestRecord q kind ++ rest) = c
      ∧ controlMalformed (requestRecord q kind) = false
      ∧ (q.requester = .rcp → spiCommand (0x01 :: requestRecord q kind ++ rest) = c)

/-- O19. The cell taken is the oldest of the first non-empty category; a TRIGGER cell that recovery has returned goes
before the others of its category, and among these the lowest index goes first, the oldest of that index (R9, R12). A
cell is taken whenever one waits, and the port is left as it was but for that one cell. Byte j of the lane at position
k of the active lane set is byte k + j * m of the cell, m being the number of lanes (R6). The start-of-cell symbol
stands before byte 0, on the lane that carries it (R181, log 29). In UP the lanes of the set carry idle fill while
nothing is in transmission, and cells otherwise (R12); the other lanes are quiet (R6). -/
def Obligations.CellsAreTakenInOrderAndStriped : Prop :=
  (∀ (p p' : LinkPort) (c : TxCell), takeWaiting p = some (c, p') →
      match c with
      | .sync x => p.waitSync.head? = some x
      | .trig x => p.waitSync = []
          ∧ (p.trigHead = some x
              ∨ (p.trigHead = none ∧ x ∈ p.waitTrig ∧ (∀ y ∈ p.waitTrig, x.index ≤ y.index)
                  ∧ (p.waitTrig.filter fun y => decide (y.index = x.index)).head? = some x))
      | .hold x => p.waitSync = [] ∧ p.trigHead = none ∧ p.waitTrig = [] ∧ p.waitHold.head? = some x
      | .ctrl x => p.waitSync = [] ∧ p.trigHead = none ∧ p.waitTrig = [] ∧ p.waitHold = [] ∧ p.waitCtrl.head? = some x)
    ∧ (∀ (p p' : LinkPort) (c : TxCell), takeWaiting p = some (c, p') →
      match c with
      | .sync _ => p' = { p with waitSync := p.waitSync.tail }
      | .trig x =>
        p' = (if p.trigHead = some x then { p with trigHead := none } else { p with waitTrig := p.waitTrig.erase x })
      | .hold _ => p' = { p with waitHold := p.waitHold.tail }
      | .ctrl _ => p' = { p with waitCtrl := p.waitCtrl.tail })
    ∧ (∀ p : LinkPort, takeWaiting p = none ↔
      p.waitSync = [] ∧ p.trigHead = none ∧ p.waitTrig = [] ∧ p.waitHold = [] ∧ p.waitCtrl = [])
    ∧ (∀ (lanes : LaneSet) (k : Nat) (l : Lane) (bytes : List Byte) (j : Nat), (lanesOf lanes)[k]? = some l →
      (laneBytes lanes l bytes)[j]? = bytes[k + j * (lanesOf lanes).length]?
        ∧ laneSymbols lanes l bytes
            = if k = 0 then .startOfCell :: (laneBytes lanes l bytes).map .data else (laneBytes lanes l bytes).map .data)
    ∧ ∀ (n : Link) (l : Lane) (s : State), s.resetAsserted = false → (s.port n).state = .up →
      laneSignal s n l
        = if (s.port n).lanes.getLsbD l = false then .quiet else if (s.port n).tx = none then .idleFill else .cells

/-! ### Reset (R20, R60, R101, R150, R179) -/

/-- The values that full reset gives the blocks whatever the PRESENT pins are (R34, R74, R101, R116, R135, R151, R167,
R180). The fraction below the nanosecond is the choice of log 7, the indices of access table entry 0 that of log 25. -/
def fullResetValues (s t : State) : Prop :=
  (∀ n, t.margin n =
      { probe := none
        admission := none
        result :=
          { starter := none, lane := none, kind := none, direction := none, stepLimit := none, errorLimit := none
            steps := 0, errors := 0, outcome := .none } })
    ∧ (∀ n, t.sync n =
        { delay := none, grade := none, exchange := none, number := 0, schedule := none, follower := .untimed
          within := 0, beyond := 0, missing := 0, shift := 0, lastOffset := none, lastShift := none })
    ∧ (∀ n, t.queues n = { expedite := [], normal := [], run := 0 })
    ∧ (∀ n, t.line n =
        { present := { mode := .function, latch := false }, swapreq := { mode := .function, latch := false }
          ready := { mode := .function, latch := false }, trig := { mode := .function, latch := false }
          trigDir := .input, presentPin := (s.line n).presentPin, swapreqPin := (s.line n).swapreqPin
          trigPin := (s.line n).trigPin, pulse := none, hold := { ready := true, trig := .released, lanes := .quiet } })
    ∧ t.panel =
        { trigin := { mode := .function, latch := false }, trigout := { mode := .function, latch := false }
          triginPin := s.panel.triginPin, trigoutPulse := none }
    ∧ t.rack = 0 ∧ t.frac = 0 ∧ t.fracRem = 0
    ∧ t.tb =
        { trim := 0, integ := 0, permitUsed := false, state := .freerun, source := .internal
          priority := [0, 1, 2, 3, 4, 5], good := 0, bad := 0, missing := 0, holdoverSince := none, k := 3
          window := 100, stepThreshold := 10000, holdoverLimit := 600, freeTrim := 0 }
    ∧ (∀ i, t.trig i =
        { state := .free, owner := none, mode := .atTime, compare := 0, period := 0, repeats := 1, source := none
          delay := none, targets := 0, code := 0, outcome := .none, fires := 0, skips := 0, missedTargets := 0
          missedCaptures := 0, pulse := none })
    ∧ t.captures = [] ∧ t.captureCount = 0 ∧ t.lead = 20000 ∧ t.admitMinSteps = 6 ∧ t.drainLimitMs = 50
    ∧ (∀ i, t.route i = none) ∧ t.waiting = [] ∧ t.writing = none ∧ t.ready = false ∧ t.agingEnds = none
    ∧ t.agingInterval = 60 ∧ t.highMark = 18 ∧ t.lowMark = 6 ∧ t.holdTime = 500
    ∧ (∀ i, t.slot i = none) ∧ t.holds = []
    ∧ (∀ n k, t.counter n k = 0) ∧ t.initDrop = 0 ∧ t.captureOverflow = 0
    ∧ t.access = (Vector.replicate 8 none).set 0
        (some { space := .all, first := 0, last := 0, read := 63, modify := 63 })
    ∧ (∀ n : Link, t.outstanding[n] = false)
    ∧ t.rcp = { buffer := none, readMark := false, framing := .awaitingFall, held := none, shiftedOut := [] }

/-- O20. RESET_ASSERT: every block takes its full-reset values, and every lane is quiet while the input stays asserted;
the levels driven from outside and the oscillator stand (R20, R34, R60, R74, R101, R116, R135, R151, R167, R180).
RESET_RELEASE: the blocks have their full-reset values, rack time is 0, the switch is not ready, each entry follows its
PRESENT pin to DETECTED or stays EMPTY, ROSTER being pending for all if one moves, and each port trains at once where
its pin and the partner allow, for 100 ms (R2, R3, R20, R35, R60, R101, R150). That the release applies the full-reset
values again is the model's choice (log 11), and so are the zero fraction of rack time (log 7) and the indices of
access table entry 0 (log 25). -/
def Obligations.ResetTakesFullResetValues : Prop :=
  (∀ s : State, ∃ t, exec .resetAssert s = .next t ∧ t.resetAsserted = true
      ∧ fullResetValues s t
      ∧ (∀ n, t.port n =
          { state := .down, enabled := true, lanes := 0, failCount := 0, errRun := 0, limit := none
            activity := (s.port n).activity, waitSync := [], trigHead := none, waitTrig := [], waitHold := []
            waitCtrl := [], tx := none, lastSent := none })
      ∧ (∀ n l, laneSignal t n l = .quiet)
      ∧ (∀ n, t.entry n =
          { state := .empty, identity := none, epoch := 0, admittedAt := none, lastCause := .none, policy := .auto
            swapPending := false, presence := false, identWait := none, drainEnds := none })
      ∧ (∀ rq, t.client rq = { busy := false, cursor := 0, news := 0, mask := 127 })
      ∧ t.osc = s.osc ∧ t.idleNs = s.idleNs ∧ t.pending = s.pending)
    ∧ ∀ s : State, s.resetAsserted = true → ∃ t, exec .resetRelease s = .next t ∧ t.resetAsserted = false
      ∧ fullResetValues s t
      ∧ (∀ n, t.port n =
          { state := if (s.line n).presentPin ∧ (s.port n).activity then .training else .down
            enabled := true, lanes := 0, failCount := 0, errRun := 0
            limit := if (s.line n).presentPin ∧ (s.port n).activity then some (s.osc + 100000000) else none
            activity := (s.port n).activity, waitSync := [], trigHead := none, waitTrig := [], waitHold := []
            waitCtrl := [], tx := none, lastSent := none })
      ∧ (∀ n, t.entry n =
          { state := if (s.line n).presentPin then .detected else .empty
            identity := none, epoch := 0, admittedAt := none, lastCause := .none, policy := .auto
            swapPending := false, presence := (s.line n).presentPin, identWait := none, drainEnds := none })
      ∧ (∀ rq, t.client rq =
          { busy := false, cursor := 0, news := if ∃ n, (s.line n).presentPin = true then 4 else 0, mask := 127 })
      ∧ t.osc = s.osc ∧ t.idleNs = s.idleNs ∧ t.pending = s.pending ∧ Within moved (fullReset false s) t

/-- O21. SWITCH_INITIALISATION_COMPLETE makes the switch ready and starts the aging timer with the interval in force
(R147, R150); that on a ready switch it changes nothing is the model's choice (log 10). HUB_RESET from the RCP is
answered OK; routes, slots, queues, holds, waiting writes, triggers, captures and counters are cleared, the settings
and the access table return to their defaults and the switch is not ready (R102, R135, R150, R151, R167, R179). Rack
time and the step permit go on, and where every PRESENT pin agrees with the roster no port changes and each entry with
its link up is IDENTIFYING if it was ACTIVE, DRAINING, PENDING or IDENTIFYING (R21, R61). -/
def Obligations.SoftResetAndInitialisation : Prop :=
  (∀ s : State, s.ready = false → s.resetAsserted = false →
      exec .switchInitialisationComplete s
        = .next { s with ready := true, agingEnds := some (s.osc + s.agingInterval * secondNs) })
    ∧ (∀ s : State, s.ready = true → exec .switchInitialisationComplete s = .next s)
    ∧ ∀ (q : Request) (s : State), q.requester = .rcp → s.rcp.reading = false → s.busy .rcp = false → BusyLaw s →
      ∃ t, exec (.hubReset q) s = .next t ∧ Replied q kindHubReset .ok [] s t
        ∧ (∀ i, t.route i = none) ∧ (∀ i, t.slot i = none) ∧ (∀ n, t.queues n = .fullReset) ∧ t.holds = []
        ∧ t.waiting = [] ∧ t.writing = none ∧ t.ready = false ∧ t.agingEnds = none
        ∧ t.agingInterval = 60 ∧ t.highMark = 18 ∧ t.lowMark = 6 ∧ t.holdTime = 500
        ∧ (∀ i, t.trig i = .free) ∧ t.captures = [] ∧ t.captureCount = 0 ∧ t.lead = leadDefault
        ∧ (∀ n k, t.counter n k = 0) ∧ t.initDrop = 0 ∧ t.captureOverflow = 0
        ∧ t.access = accessReset ∧ (∀ rq, (t.client rq).cursor = 0 ∧ (t.client rq).mask = (s.client rq).mask)
        ∧ t.tb.k = 3 ∧ t.tb.window = 100 ∧ t.tb.stepThreshold = 10000 ∧ t.tb.holdoverLimit = 600
        ∧ t.tb.priority = [0, 1, 2, 3, 4, 5] ∧ t.tb.freeTrim = s.tb.freeTrim ∧ t.tb.integ = s.tb.integ
        ∧ t.tb.permitUsed = s.tb.permitUsed ∧ t.rack = s.rack
        ∧ t.admitMinSteps = 6 ∧ t.drainLimitMs = 50
        ∧ (∀ n, (t.line n).present = .fullReset ∧ (t.line n).trig = .fullReset ∧ (t.line n).trigDir = .input)
        ∧ ((∀ n, (s.entry n).presence = (s.line n).presentPin) → ∀ n,
            (t.port n).service = (s.port n).service
              ∧ (t.entry n).epoch = (s.entry n).epoch ∧ (t.entry n).policy = .auto ∧ (t.entry n).swapPending = false
              ∧ (t.entry n).state
                  = if inService (s.port n).state = true
                      ∧ ((s.entry n).state = .active ∨ (s.entry n).state = .draining ∨ (s.entry n).state = .pending)
                    then .identifying else (s.entry n).state)

/-! ### What a link sends next, and what goes with a link (R12, R14, R156) -/

/-- A HOLD or RESUME for link `m` has been offered: an idle transmitter sends it, and otherwise it waits as the newest
of its category (R12). -/
def holdOffered (m : Link) (cell : HoldCell) (s t : State) : Prop :=
  ((s.port m).state = .up → (s.port m).tx = none → takeWaiting (s.port m) = none →
      (t.port m).tx = some (.cell (.hold cell)))
    ∧ (inService (s.port m).state = true → ((s.port m).state = .up → (s.port m).tx ≠ none) →
      (t.port m).waitHold = (s.port m).waitHold ++ [cell])

/-- The hold-list entries that satisfy `p` are removed, and each has a RESUME for its stream on its source link, if that
link is UP; the order of the RESUME cells is not claimed (R140). -/
def holdsReleased (p : HoldEntry → Bool) (s t : State) : Prop :=
  t.holds = s.holds.filter (fun h => !p h)
    ∧ ∀ m : Link,
      let resumes := ((s.holds.filter p).filter fun h => decide (h.source = m)).map fun h => HoldCell.resume h.stream
      ((s.port m).state ≠ .up → (t.port m).waitHold = (s.port m).waitHold)
        ∧ ((s.port m).state = .up → (s.port m).tx ≠ none →
            ∃ cells, cells.Perm resumes ∧ (t.port m).waitHold = (s.port m).waitHold ++ cells)
        ∧ ((s.port m).state = .up → (s.port m).tx = none → takeWaiting (s.port m) = none →
            ∀ cell ∈ resumes, (t.port m).tx = some (.cell (.hold cell)) ∨ cell ∈ (t.port m).waitHold)

/-- The cells waiting on two ports are the same. -/
def sameWaiting (p p' : LinkPort) : Prop :=
  p'.waitSync = p.waitSync ∧ p'.trigHead = p.trigHead ∧ p'.waitTrig = p.waitTrig ∧ p'.waitHold = p.waitHold
    ∧ p'.waitCtrl = p.waitCtrl

/-- The free transmitter of link `n`, UP, has taken what is next. A waiting cell leaves its category and goes before any
block. Of the blocks it is the oldest EXPEDITE one, or the oldest NORMAL one after a run of 8 or with no EXPEDITE block
queued; its reference leaves the queue and the run counts on, or is 0 again (R12, R156, R157). A NORMAL depth that falls
to the low watermark or below removes the holds against the link, each with a RESUME if its source link is UP; above it
they stay (R162). -/
def nextTaken (n : Link) (s t : State) : Prop :=
  (∀ c p, takeWaiting (s.port n) = some (c, p) →
      (t.port n).tx = some (.cell c) ∧ sameWaiting p (t.port n) ∧ t.queues n = s.queues n ∧ t.holds = s.holds)
    ∧ (takeWaiting (s.port n) = none → (s.queues n).expedite = [] → (s.queues n).normal = [] →
      (t.port n).tx = none ∧ sameWaiting (s.port n) (t.port n) ∧ t.queues n = s.queues n ∧ t.holds = s.holds)
    ∧ (∀ a rest, takeWaiting (s.port n) = none → (s.queues n).expedite = a :: rest →
      (s.queues n).normal = [] ∨ (s.queues n).run < 8 →
      (t.port n).tx = some (.block a) ∧ sameWaiting (s.port n) (t.port n) ∧ t.holds = s.holds
        ∧ t.queues n = { s.queues n with expedite := rest, run := min ((s.queues n).run + 1) 8 })
    ∧ ∀ b rest, takeWaiting (s.port n) = none → (s.queues n).normal = b :: rest →
      (s.queues n).expedite = [] ∨ 8 ≤ (s.queues n).run →
      (t.port n).tx = some (.block b) ∧ t.queues n = { s.queues n with normal := rest, run := 0 }
        ∧ (rest.length ≤ s.lowMark → holdsReleased (fun h => decide (h.egress = n)) s t)
        ∧ (s.lowMark < rest.length → t.holds = s.holds ∧ sameWaiting (s.port n) (t.port n))

/-- The NOTICE cell that Fn is offered when a kind is set pending for it in service (R176). -/
def noticeFor (k : Notice) (n : Link) (s : State) : List CtrlCell :=
  if (s.client (.frame n)).mask &&& k.bit ≠ 0 ∧ s.outstanding[n] = false then
    [.notice ((s.client (.frame n)).news ||| k.bit)]
  else []

/-- What link `n` going DOWN or OFF makes of what the blocks keep for it: the holds of its streams go without a RESUME
and those against it with one on each source link that is UP; every reference in its queues and in transmission is
counted in FLUSHED and every waiting TRIGGER cell in TRIG_MISSED; the result record returns to its default (R14, R26,
R127, R158, Table 1.7 (1)). That a TRIGGER cell in transmission is not counted is the model's choice (log 17). -/
def linkWiped (n : Link) (s t : State) : Prop :=
  holdsReleased (fun h => decide (h.egress = n))
      ({ s with holds := s.holds.filter fun h => decide (h.source ≠ n) }.modPort n fun p => { p with waitHold := [] }) t
    ∧ t.counter n .flushed
        = satAdd (s.counter n .flushed)
            ((s.queues n).expedite.length + (s.queues n).normal.length
              + if (sendingBlock (s.port n)).isSome then 1 else 0)
    ∧ t.counter n .trigMissed
        = satAdd (s.counter n .trigMissed)
            ((s.port n).waitTrig.length + if (s.port n).trigHead.isSome then 1 else 0)
    ∧ (t.margin n).result =
        { starter := none, lane := none, kind := none, direction := none, stepLimit := none, errorLimit := none
          steps := 0, errors := 0, outcome := .none }

/-! ### Presence and swap requests (R2, R15, R36, R37, R43, R51, R52) -/

/-- O22. PRESENT_FALL clears the training failure count and leaves the port DOWN or OFF; a link in service loses what
is queued and waits for it, its holds and its result record, and what goes is counted (R14, R127, R158); an entry
whose line is in FUNCTION mode is EMPTY with cause PRESENCE, without identity, its epoch kept, in either order of the
edge and the link DOWN (R15, R51). PRESENT_RISE on a link in DOWN: an EMPTY entry whose line is in FUNCTION mode
passes to DETECTED, and the port trains at once if retry is not barred and activity is already seen (R2, R36, R37);
with the line in DIRECT mode the roster is not told (R63). On a port in any other state, OFF among them, the port is
as it was, and an EMPTY entry passes to DETECTED, or to PROBING where the link is in service already; an entry that is
not EMPTY takes the presence alone (R1, R36, R37). Three points are the model's choice: an edge to the level the
pin already has changes nothing (log 10), a TRIGGER cell in transmission when the link goes down is not counted in
TRIG_MISSED (log 17), and no capture is made where a hold with DRIVEN_LOW ends as the entry becomes EMPTY (log 28). -/
def Obligations.PresenceEdgesMoveTheEntry : Prop :=
  (∀ (n : Link) (edgeFirst : Bool) (s : State), (s.line n).presentPin = true →
      ∃ t, exec (.presentFall n edgeFirst) s = .next t
        ∧ (t.line n).presentPin = false ∧ (t.port n).failCount = 0
        ∧ ((t.port n).state = .down ∨ (t.port n).state = .off)
        ∧ (inService (s.port n).state = true →
            (t.port n).state = .down ∧ Emptied n t ∧ ToldAll .link t
              ∧ ((s.port n).state = .recovery ∨ (s.port n).tx ≠ none ∨ takeWaiting (s.port n) = none → linkWiped n s t))
        ∧ ((s.line n).present.mode = .function →
            (t.entry n).state = .empty ∧ (t.entry n).presence = false
              ∧ ((s.entry n).state ≠ .empty →
                  (t.entry n).identity = none ∧ (t.entry n).admittedAt = none ∧ (t.entry n).swapPending = false
                    ∧ (t.entry n).lastCause = .presence ∧ (t.entry n).epoch = (s.entry n).epoch ∧ ToldAll .roster t))
        ∧ Elsewhere n s t ∧ Within (.settings :: moved) s t)
    ∧ (∀ (n : Link) (s : State), (s.line n).presentPin = false → (s.port n).state = .down →
      ∃ t, exec (.presentRise n) s = .next t ∧ (t.line n).presentPin = true
        ∧ (t.port n).state
            = (if (s.port n).failCount < failBar ∧ (s.port n).activity ∧ s.resetAsserted = false then .training else .down)
        ∧ (t.port n).failCount = (s.port n).failCount
        ∧ ((s.line n).present.mode = .function → (s.entry n).state = .empty →
            (t.entry n).state = .detected ∧ (t.entry n).presence = true ∧ (t.entry n).epoch = (s.entry n).epoch
              ∧ ToldAll .roster t)
        ∧ ((s.line n).present.mode = .direct → t.entry n = s.entry n)
        ∧ Elsewhere n s t ∧ Within (.settings :: moved) s t)
    ∧ (∀ (n : Link) (s : State), (s.line n).presentPin = false → (s.port n).state ≠ .down →
      ∃ t, exec (.presentRise n) s = .next t ∧ (t.line n).presentPin = true
        ∧ (t.port n).service = (s.port n).service
        ∧ ((s.line n).present.mode = .function → (s.entry n).state = .empty →
            (t.entry n).state = (if inService (s.port n).state then .probing else .detected)
              ∧ (t.entry n).presence = true ∧ (t.entry n).epoch = (s.entry n).epoch ∧ ToldAll .roster t)
        ∧ ((s.line n).present.mode = .function → (s.entry n).state ≠ .empty →
            t.entry n = { s.entry n with presence := true })
        ∧ ((s.line n).present.mode = .direct → t.entry n = s.entry n)
        ∧ Elsewhere n s t ∧ Within (.settings :: moved) s t)
    ∧ (∀ (n : Link) (s : State), (s.line n).presentPin = true → exec (.presentRise n) s = .next s)
    ∧ ∀ (n : Link) (edgeFirst : Bool) (s : State), (s.line n).presentPin = false →
      exec (.presentFall n edgeFirst) s = .next s

/-- O23. A falling edge, an edge in DIRECT mode, and a rising edge with the entry EMPTY, DRAINING, QUIESCED or FAULTED
change the pin alone; before ACTIVE a rising edge sets the swap-pending flag (R36, R43, R52). With the entry ACTIVE it
starts the drain with the drain limit in force and cancels the triggers of its frame; the pending pulses stay, and none
reaches its TRIG line any more (R123); a drain with nothing queued and no block in transmission is complete at once, the
entry QUIESCED and the port OFF (R43 to R46, R128). -/
def Obligations.SwapRequestsMoveTheEntry : Prop :=
  (∀ (n : Link) (s : State),
      exec (.swapRequest n .falling) s = .next (s.modLine n fun l => { l with swapreqPin := false }))
    ∧ (∀ (n : Link) (s : State), (s.line n).swapreq.mode = .direct →
      exec (.swapRequest n .rising) s = .next (s.modLine n fun l => { l with swapreqPin := true }))
    ∧ (∀ (n : Link) (s : State), (s.line n).swapreq.mode = .function →
      (s.entry n).state = .empty ∨ (s.entry n).state = .draining ∨ (s.entry n).state = .quiesced
        ∨ (s.entry n).state = .faulted →
      exec (.swapRequest n .rising) s = .next (s.modLine n fun l => { l with swapreqPin := true }))
    ∧ (∀ (n : Link) (s : State), (s.line n).swapreq.mode = .function →
      (s.entry n).state = .detected ∨ (s.entry n).state = .probing ∨ (s.entry n).state = .identifying
        ∨ (s.entry n).state = .pending →
      exec (.swapRequest n .rising) s
        = .next ((s.modLine n fun l => { l with swapreqPin := true }).modEntry n fun e => { e with swapPending := true }))
    ∧ ∀ (n : Link) (s : State), (s.line n).swapreq.mode = .function → (s.entry n).state = .active →
      ∃ t, exec (.swapRequest n .rising) s = .next t
        ∧ ToldAll .roster t ∧ (t.entry n).epoch = (s.entry n).epoch ∧ (t.entry n).identity = (s.entry n).identity
        ∧ (∀ i, (t.trig i).owner ≠ some (.frame n))
        ∧ (∀ i, (s.trig i).owner = some (.frame n) → (s.trig i).state = .armed ∨ (s.trig i).state = .waiting →
            (t.trig i).state = .done ∧ (t.trig i).outcome = .cancelledSwap)
        ∧ (∀ i, (t.trig i).pulse = (s.trig i).pulse.map fun p => { p with left := p.left ||| linkBit n })
        ∧ (((s.queues n).expedite ≠ [] ∨ (s.queues n).normal ≠ [] ∨ sendingBlock (s.port n) ≠ none) →
            (t.entry n).state = .draining
              ∧ (t.entry n).drainEnds = some (s.osc + s.drainLimitMs * millisecondNs)
              ∧ t.queues n = s.queues n ∧ (t.port n).service = (s.port n).service)
        ∧ ((s.queues n).expedite = [] → (s.queues n).normal = [] → sendingBlock (s.port n) = none →
            (t.entry n).state = .quiesced ∧ (t.entry n).drainEnds = none ∧ (t.entry n).lastCause = .none
              ∧ (t.port n).state = .off)
        ∧ Elsewhere n s t ∧ Within (.settings :: moved) s t

/-! ### Training and recovery (R2 to R5, R8 to R11, R14) -/

/-- The admission probe of a lane that starts at the moment `now`: of kind TIMING, with step limit 31 and error limit 0,
at step 1 with a first dwell of 1 ms (R22, R23, R31). -/
def admissionStart (l : Lane) (d : ProbeDirection) (now : Nat) : Probe :=
  { starter := .admission
    lane := l
    kind := .timing
    direction := d
    stepLimit := 31
    errorLimit := 0
    step := 1
    errors := 0
    lastWithin := 0
    dwellEnds := now + 1000000 }

/-- What the end of a training run with a lane set that is not empty leaves (R4, R37, R50). -/
def trainedOn (n : Link) (lanes : LaneSet) (s t : State) : Prop :=
  (t.port n).state = .up ∧ (t.port n).lanes = lanes ∧ (t.port n).failCount = 0 ∧ (t.port n).errRun = 0
    ∧ (t.port n).limit = none ∧ (t.port n).enabled = (s.port n).enabled ∧ ToldAll .link t
    ∧ ((s.entry n).state = .detected ∨ (s.entry n).state = .faulted →
        (t.entry n).state = .probing ∧ ToldAll .roster t
          ∧ ∀ l, (lanesOf lanes).head? = some l → (t.margin n).probe = some (admissionStart l .plus t.osc))
    ∧ ((s.entry n).state ≠ .detected → (s.entry n).state ≠ .faulted → t.entry n = s.entry n)
    ∧ Elsewhere n s t

/-- O24. TRAINING_ACTIVITY: a port in DOWN with PRESENT high, retry not barred and RESET not asserted passes to
TRAINING with a limit of 100 ms; any other port only follows the input (R2, R3, R20). TRAINING_ALL_ALIGNED ends the run
with four lanes, TRAINING_LIMIT_EXPIRY at the limit with those aligned: the port is UP on them, the counts are 0, LINK
is pending for all, and a DETECTED or FAULTED entry passes to PROBING, whose admission probe starts on the lowest lane
(R3, R4, R31, R37, R50). With no lane the failure count rises by 1 up to 8, TRAIN_FAILS is counted, and the port is
DOWN, or TRAINING again while activity is seen and retry is not barred (R2, R4). -/
def Obligations.TrainingRunsAndEnds : Prop :=
  (∀ (n : Link) (s : State), (s.port n).state = .down → (s.line n).presentPin = true → (s.port n).failCount < failBar →
      s.resetAsserted = false →
      exec (.trainingActivity n true) s
        = .next (s.modPort n fun p =>
            { p with activity := true, state := .training, limit := some (s.osc + 100000000) }))
    ∧ (∀ (n : Link) (seen : Bool) (s : State),
      (s.port n).state ≠ .down ∨ (s.line n).presentPin = false ∨ failBar ≤ (s.port n).failCount ∨ seen = false
        ∨ s.resetAsserted = true →
      exec (.trainingActivity n seen) s = .next (s.modPort n fun p => { p with activity := seen }))
    ∧ (∀ (n : Link) (s : State), (s.port n).state = .training →
      ∃ t, exec (.trainingAllAligned n) s = .next t ∧ trainedOn n 15 s t ∧ Within moved s t)
    ∧ (∀ (n : Link) (aligned : LaneSet) (ends : Nat) (s : State),
      (s.port n).state = .training → (s.port n).limit = some ends → aligned ≠ 0 →
      ∃ t, exec (.trainingLimitExpiry n aligned) s = .next t ∧ t.osc = max s.osc ends ∧ trainedOn n aligned s t
        ∧ Within (clocks ++ moved) s t)
    ∧ ∀ (n : Link) (ends : Nat) (s : State), (s.port n).state = .training → (s.port n).limit = some ends →
      ∃ t, exec (.trainingLimitExpiry n 0) s = .next t ∧ t.osc = max s.osc ends
        ∧ (t.port n).failCount = min ((s.port n).failCount + 1) 8
        ∧ t.counter n .trainFails = satAdd (s.counter n .trainFails) 1
        ∧ (t.port n).state = downOrTraining n ((s.port n).failCount + 1) s
        ∧ ToldAll .link t ∧ Emptied n t ∧ Elsewhere n s t ∧ Within (clocks ++ moved) s t

/-- A command that takes an UP port to RECOVERY: alignment lost on an active lane, or the fourth errored cell in
succession (R8, R9). -/
def startsRecovery (c : Instr) (n : Link) (s : State) : Prop :=
  (∃ lane, c = .alignmentLost n lane ∧ (s.port n).lanes.getLsbD lane = true)
    ∨ ∃ marked, c = .cellErrored n marked ∧ (s.port n).errRun = 3 ∧ probeError s n marked = false

/-- O25. Loss of alignment on an active lane, or the fourth errored cell in succession: RECOVERIES is counted, the
limit of 10 ms starts and LINK is pending for all. The lanes, the queues and the entry stay; the transmission stops: a
TRIGGER, HOLD, RESUME, CONTROL or NOTICE cell returns to the head of its category and a block is counted in FLUSHED;
the other waiting cells stay, but waiting SYNC cells, the open exchange and a probe go (R8, R9, R26). That a free
transmitter has no cell waiting for it is kept by every step (O5). A probe ends first: the NOTICE cell that its starter
is offered shows MARGIN, and no LINK of this recovery (R22, R25, R176). Where the block was the last of a DRAINING
entry, the drain is complete: the entry is QUIESCED with cause NONE and the port OFF (R46, R48, R157, R159). -/
def Obligations.RecoveryKeepsTheLinkInService : Prop :=
  (∀ (n : Link) (c : Instr) (s : State), (s.port n).state = .up → startsRecovery c n s →
      ((s.port n).tx = none → takeWaiting (s.port n) = none) →
      (s.entry n).state ≠ .draining ∨ sendingBlock (s.port n) = none ∨ (s.queues n).expedite ≠ []
        ∨ (s.queues n).normal ≠ [] →
      ∃ t, exec c s = .next t
        ∧ (t.port n).state = .recovery ∧ (t.port n).limit = some (s.osc + 10000000)
        ∧ (t.port n).lanes = (s.port n).lanes ∧ (t.port n).tx = none ∧ (t.port n).waitSync = []
        ∧ (t.port n).waitTrig = (s.port n).waitTrig
        ∧ (∀ k, (s.port n).tx = some (.cell (.trig k)) → (t.port n).trigHead = some k)
        ∧ (∀ k, (s.port n).tx = some (.cell (.hold k)) → (t.port n).waitHold = k :: (s.port n).waitHold)
        ∧ ((∀ k, (s.port n).tx ≠ some (.cell (.hold k))) → (t.port n).waitHold = (s.port n).waitHold)
        ∧ (∀ k, (s.port n).tx = some (.cell (.ctrl k)) →
            ∃ told, (t.port n).waitCtrl = k :: (s.port n).waitCtrl ++ told)
        ∧ ((∀ k, (s.port n).tx ≠ some (.cell (.ctrl k))) →
            ∃ told, (t.port n).waitCtrl = (s.port n).waitCtrl ++ told)
        ∧ (∀ m, c = .cellErrored n m → (t.port n).errRun = 0
            ∧ t.counter n .cellErrors = satAdd (s.counter n .cellErrors) 1)
        ∧ t.counter n .recoveries = satAdd (s.counter n .recoveries) 1
        ∧ ((sendingBlock (s.port n)).isSome → t.counter n .flushed = satAdd (s.counter n .flushed) 1)
        ∧ (t.sync n).exchange = none ∧ (t.margin n).probe = none
        ∧ t.queues n = s.queues n ∧ t.entry n = s.entry n ∧ ToldAll .link t ∧ Elsewhere n s t ∧ Within moved s t)
    ∧ (∀ (n m : Link) (c : Instr) (p : Probe) (s : State), (s.port n).state = .up → startsRecovery c n s →
      (s.margin n).probe = some p → p.starter = .request (.frame m) → s.outstanding[m] = false →
      (s.client (.frame m)).mask &&& Notice.margin.bit ≠ 0 → (s.port m).state = .up → (s.port m).tx = none →
      takeWaiting (s.port m) = none →
      ∃ t, exec c s = .next t ∧ (t.margin n).probe = none
        ∧ ((s.entry n).state ≠ .draining → (t.margin n).result = probeResult p p.lastWithin .abortLink)
        ∧ (m ≠ n → (t.port m).tx = some (.cell (.ctrl (.notice ((s.client (.frame m)).news ||| Notice.margin.bit)))))
        ∧ (m = n → (t.port m).waitCtrl = [.notice ((s.client (.frame m)).news ||| Notice.margin.bit)]))
    ∧ ∀ (n : Link) (c : Instr) (i : SlotIx) (s : State), (s.port n).state = .up → startsRecovery c n s →
      (s.entry n).state = .draining → sendingBlock (s.port n) = some i → (s.queues n).expedite = [] →
      (s.queues n).normal = [] →
      ∃ t, exec c s = .next t ∧ (t.entry n).state = .quiesced ∧ (t.entry n).lastCause = .none
        ∧ (t.entry n).drainEnds = none ∧ (t.entry n).identity = (s.entry n).identity ∧ (t.port n).state = .off
        ∧ (t.port n).enabled = (s.port n).enabled ∧ Emptied n t
        ∧ t.counter n .recoveries = satAdd (s.counter n .recoveries) 1
        ∧ t.counter n .flushed = satAdd (s.counter n .flushed) 1
        ∧ (∀ m, c = .cellErrored n m → t.counter n .cellErrors = satAdd (s.counter n .cellErrors) 1)
        ∧ ToldAll .roster t ∧ ToldAll .link t ∧ Elsewhere n s t ∧ Within moved s t

/-- What a recovery that ends in UP leaves (R10, R31, R33): the queues and the waiting cells are as they were, with the
NOTICE of LINK among them where one is offered, but for what the free transmitter takes (R9, R12, R156). -/
def recoveredOn (n : Link) (lanes : LaneSet) (s t : State) : Prop :=
  (t.port n).state = .up ∧ (t.port n).lanes = lanes ∧ (t.port n).errRun = 0 ∧ (t.port n).limit = none
    ∧ (t.port n).failCount = (s.port n).failCount ∧ t.entry n = s.entry n ∧ ToldAll .link t
    ∧ (∀ l, (s.entry n).state = .probing → (lanesOf lanes).head? = some l →
        (t.margin n).probe = some (admissionStart l .plus t.osc))
    ∧ ((s.entry n).state ≠ .probing → t.margin n = s.margin n) ∧ t.syncs = s.syncs ∧ t.pool = s.pool
    ∧ ((s.port n).tx = none →
        nextTaken n
          (s.modPort n fun p => { p with state := .up, waitCtrl := p.waitCtrl ++ noticeFor .link n s }) t)
    ∧ Elsewhere n s t

/-- O26. RECOVERY_ALL_ALIGNED ends a recovery in UP on the whole set, RECOVERY_LIMIT_EXPIRY at the limit on the lanes
that are aligned, each lane left out counted in LANE_DROPS; a PROBING entry starts its admission sequence again (R10,
R31, R33). What was queued and waiting stays, the exchange with it, and the transmitter takes what is next (R9, R12).
With no lane aligned the link goes down: nothing stays queued or waiting, its holds and its result record go, and what
goes is counted (R14, R127, R158); an entry in ACTIVE or DRAINING passes to FAULTED with cause LINK, and one on its
way to ACTIVE back to DETECTED (R10, R14, R38, R39, R41, R50). Its open exchange counts in no run: where the source is
another link afterwards, T is as it was (R80, R89). -/
def Obligations.RecoveryEnds : Prop :=
  (∀ (n : Link) (s : State), (s.port n).state = .recovery →
      ∃ t, exec (.recoveryAllAligned n) s = .next t ∧ recoveredOn n (s.port n).lanes s t
        ∧ t.counter n .laneDrops = s.counter n .laneDrops ∧ Within moved s t)
    ∧ (∀ (n : Link) (aligned : LaneSet) (ends : Nat) (s : State),
      (s.port n).state = .recovery → (s.port n).limit = some ends → aligned &&& (s.port n).lanes ≠ 0 →
      ∃ t, exec (.recoveryLimitExpiry n aligned) s = .next t ∧ t.osc = max s.osc ends
        ∧ recoveredOn n (aligned &&& (s.port n).lanes) s t
        ∧ t.counter n .laneDrops
            = satAdd (s.counter n .laneDrops)
                ((lanesOf (s.port n).lanes).length - (lanesOf (aligned &&& (s.port n).lanes)).length)
        ∧ Within (clocks ++ moved) s t)
    ∧ ∀ (n : Link) (aligned : LaneSet) (ends : Nat) (s : State),
      (s.port n).state = .recovery → (s.port n).limit = some ends → aligned &&& (s.port n).lanes = 0 →
      ∃ t, exec (.recoveryLimitExpiry n aligned) s = .next t ∧ t.osc = max s.osc ends
        ∧ (t.port n).state = downOrTraining n (s.port n).failCount s
        ∧ ((s.entry n).state = .active ∨ (s.entry n).state = .draining →
            (t.entry n).state = .faulted ∧ (t.entry n).lastCause = .link ∧ ToldAll .roster t)
        ∧ ((s.entry n).state = .probing ∨ (s.entry n).state = .identifying ∨ (s.entry n).state = .pending →
            (t.entry n).state = .detected ∧ ToldAll .roster t)
        ∧ ToldAll .link t ∧ Emptied n t ∧ linkWiped n s t ∧ (t.sync n).delay = none ∧ (t.sync n).exchange = none
        ∧ (∀ m : Link, m ≠ n → t.tb.source = .link m → t.tb.trim = s.tb.trim) ∧ (t.margin n).probe = none
        ∧ Elsewhere n s t ∧ Within (clocks ++ moved) s t

/-! ### Cells received and sent (R7, R8, R13, R157) -/

/-- O27. An errored cell that is no probe error and not the fourth in succession is counted and adds 1 to the run; a
probe error changes nothing; a cell of unknown kind is counted in CELL_ERRORS, a malformed CONTROL cell in CELLS_IN,
and both end the run. Outside UP no cell is received (R7, R8, R24, R183). -/
def Obligations.BadCellsAreCounted : Prop :=
  (∀ (n : Link) (marked : LaneSet) (s : State), (s.port n).state = .up → probeError s n marked = true →
      exec (.cellErrored n marked) s = .next s)
    ∧ (∀ (n : Link) (marked : LaneSet) (s : State), (s.port n).state = .up → probeError s n marked = false →
      (s.port n).errRun < 3 →
      exec (.cellErrored n marked) s
        = .next ((s.count n .cellErrors).modPort n fun p => { p with errRun := p.errRun + 1 }))
    ∧ (∀ (n : Link) (s : State), (s.port n).state = .up →
      exec (.unknownKindCell n) s = .next ((s.count n .cellErrors).modPort n fun p => { p with errRun := 0 }))
    ∧ (∀ (n : Link) (body : List Byte) (s : State), (s.port n).state = .up →
      exec (.malformedControlCell n body) s
        = .next ((s.count n .cellsIn).modPort n fun p => { p with errRun := 0 }))
    ∧ ∀ (n : Link) (marked : LaneSet) (cell : RxCell) (body : List Byte) (s : State), (s.port n).state ≠ .up →
      exec (.cellErrored n marked) s = .next s ∧ exec (.unknownKindCell n) s = .next s
        ∧ exec (.malformedControlCell n body) s = .next s ∧ exec (.sampleCellReceived n cell) s = .next s
        ∧ exec (.syncReplyReceived n cell) s = .next s ∧ exec (.triggerCellReceived n cell) s = .next s
        ∧ exec (.identReceived n cell) s = .next s

/-- O28. A cell of the arbiter completes: CELLS_OUT is counted, t1 of the open exchange is taken if it was its
SYNC_REQ, with the reply limit of 10 ms, and the transmitter takes the next waiting cell, or else a block by the
egress service rule, which may remove the holds against the link (R12, R13, R88, R156, R157, R162). A block completes:
CELLS_OUT and BLOCKS_OUT are counted and its reference is released, freeing the slot with the last one; the
transmitter goes on, but with the entry DRAINING and nothing left to send the entry is QUIESCED and the port OFF (R13,
R46, R152, R157, R159). -/
def Obligations.TransmissionsComplete : Prop :=
  (∀ (n : Link) (c : TxCell) (s : State), (s.port n).state = .up → (s.port n).tx = some (.cell c) →
      ∃ t, exec (.cellTransmissionComplete n) s = .next t
        ∧ (t.port n).lastSent = some c ∧ (t.port n).tx = nextTransit s n ∧ nextTaken n s t
        ∧ (t.holds = s.holds → ∀ m, m ≠ n → t.port m = s.port m)
        ∧ t.counter n .cellsOut = satAdd (s.counter n .cellsOut) 1 ∧ t.counter n .blocksOut = s.counter n .blocksOut
        ∧ (∀ k x, c = .sync (.req k) → (s.sync n).exchange = some x → x.number = k → x.t1 = none →
            (t.sync n).exchange = some { x with t1 := some s.rack, limit := some (s.osc + 10000000) })
        ∧ ((∀ k, c ≠ .sync (.req k)) → t.syncs = s.syncs)
        ∧ (t.port n).service = (s.port n).service ∧ (∀ m, m ≠ n → t.queues m = s.queues m)
        ∧ Within [.ports, .counters, .syncs, .egress, .holds] s t)
    ∧ ∀ (n : Link) (i : SlotIx) (sl : Slot) (s : State),
      (s.port n).state = .up → (s.port n).tx = some (.block i) → s.slot i = some sl →
      ∃ t, exec (.cellTransmissionComplete n) s = .next t
        ∧ t.slot i = (if sl.refs ≤ 1 then none else some { sl with refs := sl.refs - 1 })
        ∧ (∀ j, j ≠ i → t.slot j = s.slot j)
        ∧ t.counter n .cellsOut = satAdd (s.counter n .cellsOut) 1
        ∧ t.counter n .blocksOut = satAdd (s.counter n .blocksOut) 1
        ∧ ((s.entry n).state ≠ .draining ∨ (s.queues n).expedite ≠ [] ∨ (s.queues n).normal ≠ [] →
            (t.port n).tx = nextTransit s n ∧ nextTaken n s t ∧ (t.holds = s.holds → ∀ m, m ≠ n → t.port m = s.port m)
              ∧ t.entry n = s.entry n ∧ (t.port n).service = (s.port n).service)
        ∧ ((s.entry n).state = .draining → (s.queues n).expedite = [] → (s.queues n).normal = [] →
            (t.entry n).state = .quiesced ∧ (t.entry n).lastCause = .none ∧ (t.port n).state = .off ∧ Emptied n t)
        ∧ (∀ m, m ≠ n → t.queues m = s.queues m) ∧ Within moved s t

/-! ### Requests that only read -/

/-- The fields at the head of each reading request's results, and of a capture record (log 15): `b8` of a value is its
one-byte field. -/
def resultsHold : Prop :=
  let b8 : Nat → Byte := BitVec.ofNat 8
  (∀ (s : State) (n : Link), ∃ whether barred : Byte,
      linkReadResults s n
        = [(s.port n).state.code, if (s.port n).enabled then 0 else 1, whether, (s.port n).lanes.setWidth 8,
            b8 (s.port n).failCount, barred, b8 (s.port n).errRun, if (s.line n).presentPin then 1 else 0])
    ∧ (∀ (s : State) (n : Link) (r : MarginResult), (s.margin n).result = r →
      (r = { starter := none, lane := none, kind := none, direction := none, stepLimit := none, errorLimit := none
             steps := 0, errors := 0, outcome := .none } →
          (marginResultResults s n).take 9 = [0, 0, 0, 0, 0, 0, 0, 0, 0])
        ∧ ∀ who l k d x y, r.starter = some who → r.lane = some l → r.kind = some k → r.direction = some d →
            r.stepLimit = some x → r.errorLimit = some y →
            (marginResultResults s n).take 15
              = [1, who.code, 1, b8 l.val, 1, k.code, 1, d.code, 1, b8 x, 1, b8 y, b8 r.steps, b8 r.errors,
                  r.outcome.code])
    ∧ (∀ (s : State) (n : Link), ∃ rest : List Byte,
      rosterReadResults s n
        = (s.entry n).state.code :: (match (s.entry n).identity with
            | none => [0]
            | some i => 1 :: be64 i.serial ++ [b8 i.cls, b8 i.grade, b8 i.slots]) ++ be16 (s.entry n).epoch ++ rest)
    ∧ (∀ (s : State) (n : Link), (linkLinesResult s n).take 3
      = [(s.line n).present.mode.code, if (s.line n).present.latch then 1 else 0, if (s.line n).presentPin then 1 else 0])
    ∧ (∀ s : State, panelLinesResult s
      = [s.panel.trigin.mode.code, if s.panel.trigin.latch then 1 else 0, if s.panel.triginPin then 1 else 0,
          s.panel.trigout.mode.code, if s.panel.trigout.latch then 1 else 0, if trigoutLevel s then 1 else 0,
          if attnLevel s then 1 else 0])
    ∧ (∀ s : State, ∃ rest : List Byte, timeReadResults s
      = be64 s.rack ++ [s.tb.state.code, s.tb.source.code, if s.tb.permitUsed then 1 else 0]
          ++ be32 (BitVec.ofInt 32 s.tb.trim) ++ be32 (BitVec.ofInt 32 s.tb.integ)
          ++ [b8 s.tb.good, b8 s.tb.bad, b8 s.tb.missing] ++ rest)
    ∧ (∀ (s : State) (n : Link), ∃ rest : List Byte, syncReadResults s n
      = (syncRole s n).code :: (match (s.sync n).delay with
          | none => [0]
          | some d => 1 :: be16 (BitVec.ofNat 16 d)) ++ [b8 (s.sync n).shift] ++ rest)
    ∧ (∀ (s : State) (i : TrigIx), ∃ rest : List Byte, trigReadResults s i
      = [(s.trig i).state.code, ownerCode (s.trig i).owner, (s.trig i).mode.code] ++ be64 (s.trig i).compare
          ++ be64 (BitVec.ofNat 64 (s.trig i).period) ++ be16 (BitVec.ofNat 16 (s.trig i).repeats) ++ rest)
    ∧ (∀ (s : State) (i : RouteIx), ∃ (running waiting : Byte) (fields : List Byte), routeReadResults s i
        = (match s.route i with
            | none => [1, 0]
            | some r => [0, 1] ++ be16 (r.stream.setWidth 16) ++ [b8 r.source.val, r.egress.setWidth 8, r.kind.code,
                r.cls.code] ++ fields) ++ [running, waiting])
    ∧ (∀ (s : State) (e : AccessEntry), s.access[0] = some e → (accessReadResults s).take 6
      = [1, e.space.code, b8 e.first, b8 e.last, e.read.setWidth 8, e.modify.setWidth 8])
    ∧ (∀ s : State, hubStatusResults s
      = [if s.ready then 0 else 1, s.tb.state.code, s.tb.source.code]
          ++ (allLinks.map fun n => (s.entry n).state.code) ++ allLinks.map fun n => (s.port n).state.code)
    ∧ (∀ c : Capture, ∃ rest : List Byte,
      captureRecord c = be16 c.number ++ [c.origin.code, c.source.code] ++ be64 c.time
        ++ [if c.uncompensated then 0 else 1, if c.unlocked then 0 else 1] ++ rest)
    ∧ ([LinkState.off, .down, .training, .up, .recovery].map (·.code) = [0, 1, 2, 3, 4]
      ∧ [RosterState.empty, .detected, .probing, .identifying, .pending, .active, .draining, .quiesced, .faulted].map
          (·.code) = [0, 1, 2, 3, 4, 5, 6, 7, 8]
      ∧ [TimebaseState.freerun, .acquiring, .locked, .holdover].map (·.code) = [0, 1, 2, 3]
      ∧ [Source.internal, .link 0, .link 5, .none].map (·.code) = [0, 1, 6, 7]
      ∧ [TrigState.free, .waiting, .armed, .done].map (·.code) = [0, 1, 2, 3]
      ∧ [none, some .rcp, some (.frame 0), some (.frame 5)].map ownerCode = [7, 0, 1, 6]
      ∧ [ProbeOutcome.none, .done, .abortLink, .abortSwap, .abortRequest].map (·.code) = [0, 1, 2, 3, 4])

/-- O29. LINK_READ, MARGIN_RESULT, ROSTER_READ, LINE_READ, TIME_READ, SYNC_READ, TRIG_READ, ROUTE_READ, ACCESS_READ and
HUB_STATUS that pass their checks are answered OK with the values of the moment at which they are taken, and change
nothing but the response (R16, R30, R54, R68, R98, R115, R130, R143, R172, R178). The last clauses say what the results
hold, by the order and the encodings of log 15 (R185): the code of each value, the fields before the first one of
varying length, and whole results where none varies. The bytes that answer a "whether" are free (log 4). -/
def Obligations.ReadsAnswerTheMoment : Prop :=
  (∀ (q : Request) (n : Link) (rest : List Byte) (s : State), Taken q kindLinkRead false s →
      readLink q.args = some (n, rest) → mayRead s q.requester .link n.val = true →
      exec (.linkRead q) s = .next (answered q kindLinkRead .ok (linkReadResults (arrived q s) n) (arrived q s)))
    ∧ (∀ (q : Request) (n : Link) (rest : List Byte) (s : State), Taken q kindMarginResult false s →
      readLink q.args = some (n, rest) → mayRead s q.requester .link n.val = true →
      exec (.marginResult q) s
        = .next (answered q kindMarginResult .ok (marginResultResults (arrived q s) n) (arrived q s)))
    ∧ (∀ (q : Request) (n : Link) (rest : List Byte) (s : State), Taken q kindRosterRead false s →
      readLink q.args = some (n, rest) → mayRead s q.requester .roster n.val = true →
      exec (.rosterRead q) s = .next (answered q kindRosterRead .ok (rosterReadResults (arrived q s) n) (arrived q s)))
    ∧ (∀ (q : Request) (i : Fin 7) (n : Link) (s : State), Taken q kindLineRead false s → indexArg 7 q.args = some i →
      i.val = n.val → mayRead s q.requester .lines i.val = true →
      exec (.lineRead q) s = .next (answered q kindLineRead .ok (linkLinesResult (arrived q s) n) (arrived q s)))
    ∧ (∀ (q : Request) (i : Fin 7) (s : State), Taken q kindLineRead false s → indexArg 7 q.args = some i →
      i.val = 6 → mayRead s q.requester .lines i.val = true →
      exec (.lineRead q) s = .next (answered q kindLineRead .ok (panelLinesResult (arrived q s)) (arrived q s)))
    ∧ (∀ (q : Request) (s : State), Taken q kindTimeRead false s → mayRead s q.requester .timebase 0 = true →
      exec (.timeRead q) s = .next (answered q kindTimeRead .ok (timeReadResults (arrived q s)) (arrived q s)))
    ∧ (∀ (q : Request) (n : Link) (rest : List Byte) (s : State), Taken q kindSyncRead false s →
      readLink q.args = some (n, rest) → mayRead s q.requester .timebase 0 = true →
      exec (.syncRead q) s = .next (answered q kindSyncRead .ok (syncReadResults (arrived q s) n) (arrived q s)))
    ∧ (∀ (q : Request) (i : TrigIx) (s : State), Taken q kindTrigRead false s → indexArg 16 q.args = some i →
      mayReadTrig s q.requester i = true →
      exec (.trigRead q) s = .next (answered q kindTrigRead .ok (trigReadResults (arrived q s) i) (arrived q s)))
    ∧ (∀ (q : Request) (i : RouteIx) (s : State), Taken q kindRouteRead false s → s.ready = true →
      indexArg 64 q.args = some i → mayReadRoute s q.requester i = true →
      exec (.routeRead q) s = .next (answered q kindRouteRead .ok (routeReadResults (arrived q s) i) (arrived q s)))
    ∧ (∀ (q : Request) (s : State), Taken q kindAccessRead false s →
      exec (.accessRead q) s = .next (answered q kindAccessRead .ok (accessReadResults s) (arrived q s)))
    ∧ (∀ (q : Request) (s : State), Taken q kindHubStatus false s →
      exec (.hubStatus q) s = .next (answered q kindHubStatus .ok (hubStatusResults s) (arrived q s)))
    ∧ resultsHold

/-! ### Link requests (R17, R18) -/

/-- O30. LINK_ENABLE (R17): without modify permission NOACCESS, and with the entry QUIESCED STATE for either setting,
nothing changed. OFF takes the port to OFF; ON brings an OFF port to DOWN, or to TRAINING where R2 lets it, and is
answered OK; writing the setting the port already has is answered OK and changes nothing. -/
def Obligations.LinkEnableSetsThePort : Prop :=
  (∀ (q : Request) (n : Link) (rest : List Byte) (s : State), Taken q kindLinkEnable false s →
      readLink q.args = some (n, rest) → mayModify s q.requester .link n.val = true → settingArg rest = some false →
      held s n = false → (s.port n).enabled = true →
      ∃ t, exec (.linkEnable q) s = .next t ∧ (t.port n).state = .off ∧ (t.port n).enabled = false
        ∧ (t.port n).failCount = (s.port n).failCount
        ∧ ((s.port n).state ≠ .off → Emptied n t ∧ ToldAll .link t)
        ∧ Responded q kindLinkEnable .ok [] s t ∧ Elsewhere n (arrived q s) t)
    ∧ (∀ (q : Request) (n : Link) (rest : List Byte) (s : State), Taken q kindLinkEnable false s →
      readLink q.args = some (n, rest) → mayModify s q.requester .link n.val = true → settingArg rest = some true →
      held s n = false → (s.port n).enabled = false → (s.port n).state = .off →
      ∃ t, exec (.linkEnable q) s = .next t ∧ (t.port n).state = downOrTraining n (s.port n).failCount s
        ∧ (t.port n).enabled = true ∧ (t.port n).failCount = (s.port n).failCount
        ∧ Responded q kindLinkEnable .ok [] s t ∧ Elsewhere n (arrived q s) t)
    ∧ (∀ (q : Request) (n : Link) (rest : List Byte) (on : Bool) (s : State), Taken q kindLinkEnable false s →
      readLink q.args = some (n, rest) → mayModify s q.requester .link n.val = true → settingArg rest = some on →
      held s n = false → (s.port n).enabled = on →
      exec (.linkEnable q) s = .next (answered q kindLinkEnable .ok [] (arrived q s)))
    ∧ (∀ (q : Request) (n : Link) (rest : List Byte) (on : Bool) (s : State), Taken q kindLinkEnable false s →
      readLink q.args = some (n, rest) → mayModify s q.requester .link n.val = true → settingArg rest = some on →
      held s n = true →
      exec (.linkEnable q) s = .next (answered q kindLinkEnable .state [] (arrived q s)))
    ∧ ∀ (q : Request) (n : Link) (rest : List Byte) (s : State), Taken q kindLinkEnable false s →
      readLink q.args = some (n, rest) → mayModify s q.requester .link n.val = false →
      exec (.linkEnable q) s = .next (answered q kindLinkEnable .noAccess [] (arrived q s))

/-- O31. LINK_RETRAIN: an UP, RECOVERY or TRAINING port trains afresh with a new limit, keeping its failure count, and
nothing stays queued on a link that was in service; a DOWN port's count is cleared and its bar lifted; an OFF port
refuses with STATE (R2, R5, R18). Where a LINK_RETRAIN or a LINK_ENABLE of Fn is answered OK on a link in service, its
response stands last of its category or is being sent; that it goes after a NOTICE of LINK from the same step is the
model's choice (log 12). -/
def Obligations.LinkRetrainStartsAfresh : Prop :=
  (∀ (q : Request) (n : Link) (rest : List Byte) (s : State), Taken q kindLinkRetrain false s →
      readLink q.args = some (n, rest) → mayModify s q.requester .link n.val = true →
      (s.port n).state = .up ∨ (s.port n).state = .recovery ∨ (s.port n).state = .training →
      ∃ t, exec (.linkRetrain q) s = .next t ∧ (t.port n).state = .training
        ∧ (t.port n).limit = some (s.osc + trainingLimitNs) ∧ (t.port n).failCount = (s.port n).failCount
        ∧ ((s.port n).state ≠ .training → Emptied n t ∧ ToldAll .link t)
        ∧ Replied q kindLinkRetrain .ok [] s t ∧ Elsewhere n (arrived q s) t)
    ∧ (∀ (q : Request) (n : Link) (rest : List Byte) (s : State), Taken q kindLinkRetrain false s →
      readLink q.args = some (n, rest) → mayModify s q.requester .link n.val = true → (s.port n).state = .down →
      ∃ t, exec (.linkRetrain q) s = .next t ∧ (t.port n).failCount = 0
        ∧ (t.port n).state = downOrTraining n 0 s
        ∧ Replied q kindLinkRetrain .ok [] s t ∧ Elsewhere n (arrived q s) t)
    ∧ (∀ (q : Request) (n : Link) (rest : List Byte) (s : State), Taken q kindLinkRetrain false s →
      readLink q.args = some (n, rest) → mayModify s q.requester .link n.val = true → (s.port n).state = .off →
      exec (.linkRetrain q) s = .next (answered q kindLinkRetrain .state [] (arrived q s)))
    ∧ ∀ (q : Request) (n : Link) (rest : List Byte) (on : Bool) (s : State), Taken q kindLinkEnable false s →
      readLink q.args = some (n, rest) → mayModify s q.requester .link n.val = true → settingArg rest = some on →
      held s n = false →
      ∃ t, exec (.linkEnable q) s = .next t ∧ Replied q kindLinkEnable .ok [] s t

/-! ### Lane margin probes (chapter 2) -/

/-- O32. DWELL_END within the error limit below the step limit moves the probe to the next step with a new dwell.
SYMBOL_ERROR on the probed lane adds 1 to the dwell's count up to 255, and on another lane, or with no probe, nothing.
A requested probe completes when a dwell ends above the error limit, with steps reached one less than the step, or at
the step limit, with that step; the result record takes its figures with outcome DONE, and its starter alone is told
(R23 to R25). That the move from one step to the next takes no time is the model's choice (log 2). -/
def Obligations.ProbesRunByDwells : Prop :=
  (∀ (n : Link) (p : Probe) (s : State), (s.margin n).probe = some p → p.errors ≤ p.errorLimit → p.step < p.stepLimit →
      exec (.dwellEnd n) s
        = .next ((advanceTo p.dwellEnds s).modMargin n fun m => { m with
            probe := some { p with
              lastWithin := p.step
              step := p.step + 1
              errors := 0
              dwellEnds := max s.osc p.dwellEnds + 1000000 } }))
    ∧ (∀ (n : Link) (p : Probe) (s : State), (s.margin n).probe = some p →
      ∃ t, exec (.symbolError n p.lane) s = .next t
        ∧ (t.margin n).probe = some { p with errors := min (p.errors + 1) 255 }
        ∧ (t.margin n).result = (s.margin n).result ∧ (t.margin n).admission = (s.margin n).admission
        ∧ (∀ m, m ≠ n → t.margin m = s.margin m) ∧ Within [.margins] s t)
    ∧ (∀ (n : Link) (lane : Lane) (s : State), (∀ p ∈ (s.margin n).probe, p.lane ≠ lane) →
      exec (.symbolError n lane) s = .next s)
    ∧ ∀ (n : Link) (p : Probe) (rq : Requester) (s : State), (s.margin n).probe = some p → p.starter = .request rq →
      p.errorLimit < p.errors ∨ p.step = p.stepLimit →
      ∃ t, exec (.dwellEnd n) s = .next t ∧ (t.margin n).probe = none
        ∧ (t.margin n).result
            = probeResult p (if p.errorLimit < p.errors then p.step - 1 else p.step) .done
        ∧ (t.client rq).news &&& Notice.margin.bit = Notice.margin.bit
        ∧ (∀ other, other ≠ rq → t.client other = s.client other)
        ∧ (∀ m, m ≠ n → t.margin m = s.margin m)
        ∧ Within (clocks ++ [.ports, .clients, .outstanding, .margins]) s t

/-- Steps reached and errors of an admission probe that stops now: one step less than the step at errors above the
limit, else the step (R23, R31). -/
def stopFigure (p : Probe) : Figure :=
  { steps := if p.errorLimit < p.errors then p.step - 1 else p.step, errors := p.errors }

/-- O33. The sequence runs the MINUS probe of a lane after its PLUS probe, and then the PLUS probe of the next lane,
each of kind TIMING, from step 1 to step limit 31 with error limit 0 and dwells of 1 ms (R23, R31). At its end, with a
lane whose smaller figure reaches ADMIT_MIN_STEPS, the failing lanes leave the active lane set, uncounted, and the
entry goes on to IDENTIFYING with an identity wait of 2 s; with none the set stays and the entry is FAULTED with cause
MARGIN. Either way the result record shows the worst lane, the lowest of those that tie (R32, R38, R39, R50). -/
def Obligations.AdmissionSequenceRunsAndDecides : Prop :=
  (∀ (n : Link) (p : Probe) (a : Admission) (s : State), (s.margin n).probe = some p → p.starter = .admission →
      (s.margin n).admission = some a → a.plus = none → p.errorLimit < p.errors ∨ p.step = p.stepLimit →
      ∃ t, exec (.dwellEnd n) s = .next t
        ∧ (t.margin n).probe = some (admissionStart p.lane .minus (max s.osc p.dwellEnds))
        ∧ (t.margin n).admission = some { a with plus := some (stopFigure p) }
        ∧ (t.margin n).result = (s.margin n).result ∧ Within (clocks ++ [.margins]) s t)
    ∧ (∀ (n : Link) (p : Probe) (a : Admission) (plus : Figure) (next : Lane) (later : List Lane) (s : State),
      (s.margin n).probe = some p → p.starter = .admission → (s.margin n).admission = some a → a.plus = some plus →
      a.later = next :: later → p.errorLimit < p.errors ∨ p.step = p.stepLimit →
      ∃ t, exec (.dwellEnd n) s = .next t
        ∧ (t.margin n).probe = some (admissionStart next .plus (max s.osc p.dwellEnds))
        ∧ (t.margin n).admission = some
            { later := later
              plus := none
              done := a.done ++ [{ lane := p.lane, plus := plus, minus := stopFigure p }] }
        ∧ (t.margin n).result = (s.margin n).result ∧ Within (clocks ++ [.margins]) s t)
    ∧ ∀ (n : Link) (p : Probe) (a : Admission) (plus : Figure) (fs : List LaneFigures) (s : State),
      (s.margin n).probe = some p → p.starter = .admission → (s.margin n).admission = some a → a.plus = some plus →
      a.later = [] → (p.errorLimit < p.errors ∨ p.step = p.stepLimit) → (s.entry n).state = .probing →
      fs = a.done ++ [{ lane := p.lane, plus := plus, minus := stopFigure p }] →
      ∃ t, exec (.dwellEnd n) s = .next t ∧ (t.margin n).probe = none ∧ (t.margin n).admission = none
        ∧ (∃ before w after, fs = before ++ w :: after ∧ (t.margin n).result = admissionResult w
            ∧ (∀ f ∈ before, laneMargin w < laneMargin f) ∧ ∀ f ∈ after, laneMargin w ≤ laneMargin f)
        ∧ ((∃ f ∈ fs, s.admitMinSteps ≤ laneMargin f) →
            (t.entry n).state = .identifying ∧ (t.entry n).identWait = some (max s.osc p.dwellEnds + 2000000000)
              ∧ ∀ l : Lane, (t.port n).lanes.getLsbD l
                  = ((s.port n).lanes.getLsbD l
                      && !fs.any fun f => decide (f.lane = l) && decide (laneMargin f < s.admitMinSteps)))
        ∧ ((∀ f ∈ fs, laneMargin f < s.admitMinSteps) →
            (t.entry n).state = .faulted ∧ (t.entry n).lastCause = .margin ∧ (t.port n).lanes = (s.port n).lanes)
        ∧ (t.port n).state = (s.port n).state ∧ t.counters = s.counters ∧ ToldAll .roster t ∧ Elsewhere n s t
        ∧ Within (clocks ++ moved) s t

/-- O34. LINK_MARGIN START (R28), in the order of Table 2.5 (1): a link number above 5 is BADARG; no modify permission
is NOACCESS; a lane above 3, a kind or direction that is none, a step limit that is not 1 to 31 or an error limit above
63 is BADARG; any probe in progress is BUSY; a link not UP, a lane outside its active lane set, or an entry neither
PENDING nor ACTIVE is STATE. Each changes nothing. A request that passes is answered ACCEPTED with the in-progress flag
clear, and the probe starts at step 1 with its first dwell of 1 ms and the fields given, the requester recorded as its
starter. The last two clauses say which bytes are read as which fields. -/
def Obligations.MarginStartBeginsAProbe : Prop :=
  (∀ (q : Request) (n : Link) (rest : List Byte) (a : ProbeArgs) (s : State), Taken q kindLinkMargin false s →
      readLink q.args = some (n, rest) → mayModify s q.requester .link n.val = true → probeArgs rest = some a →
      (s.margin n).probe = none → (s.port n).state = .up → (s.port n).lanes.getLsbD a.lane = true →
      (s.entry n).state = .pending ∨ (s.entry n).state = .active →
      exec (.linkMarginStart q) s
        = .next (answered q kindLinkMargin .accepted [] ((arrived q s).modMargin n fun m => { m with
            probe := some
              { starter := .request q.requester
                lane := a.lane
                kind := a.kind
                direction := a.direction
                stepLimit := a.stepLimit
                errorLimit := a.errorLimit
                step := 1
                errors := 0
                lastWithin := 0
                dwellEnds := s.osc + 1000000 } })))
    ∧ (∀ (q : Request) (n : Link) (rest : List Byte) (a : ProbeArgs) (s : State), Taken q kindLinkMargin false s →
      readLink q.args = some (n, rest) → mayModify s q.requester .link n.val = true → probeArgs rest = some a →
      (s.margin n).probe.isSome = true →
      exec (.linkMarginStart q) s = .next (answered q kindLinkMargin .busy [] (arrived q s)))
    ∧ (∀ (q : Request) (n : Link) (rest : List Byte) (a : ProbeArgs) (s : State), Taken q kindLinkMargin false s →
      readLink q.args = some (n, rest) → mayModify s q.requester .link n.val = true → probeArgs rest = some a →
      (s.margin n).probe = none →
      (s.port n).state ≠ .up ∨ (s.port n).lanes.getLsbD a.lane = false
        ∨ ((s.entry n).state ≠ .pending ∧ (s.entry n).state ≠ .active) →
      exec (.linkMarginStart q) s = .next (answered q kindLinkMargin .state [] (arrived q s)))
    ∧ (∀ (q : Request) (link : Byte) (rest : List Byte) (s : State), Taken q kindLinkMargin false s →
      q.args = link :: rest → 5 < link.toNat →
      exec (.linkMarginStart q) s = .next (answered q kindLinkMargin .badArg [] (arrived q s)))
    ∧ (∀ (q : Request) (n : Link) (rest : List Byte) (s : State), Taken q kindLinkMargin false s →
      readLink q.args = some (n, rest) → mayModify s q.requester .link n.val = false →
      exec (.linkMarginStart q) s = .next (answered q kindLinkMargin .noAccess [] (arrived q s)))
    ∧ (∀ (q : Request) (n : Link) (lane kind direction steps errors : Byte) (more : List Byte) (s : State),
      Taken q kindLinkMargin false s →
      readLink q.args = some (n, 0 :: lane :: kind :: direction :: steps :: errors :: more) →
      mayModify s q.requester .link n.val = true →
      3 < lane.toNat ∨ 1 < kind.toNat ∨ 1 < direction.toNat ∨ steps = 0 ∨ 31 < steps.toNat ∨ 63 < errors.toNat →
      exec (.linkMarginStart q) s = .next (answered q kindLinkMargin .badArg [] (arrived q s)))
    ∧ (∀ (lane kind direction steps errors : Byte) (more : List Byte) (a : ProbeArgs),
      probeArgs (0 :: lane :: kind :: direction :: steps :: errors :: more) = some a ↔
        (lane.toNat ≤ 3 ∧ kind.toNat ≤ 1 ∧ direction.toNat ≤ 1 ∧ 1 ≤ steps.toNat ∧ steps.toNat ≤ 31
          ∧ errors.toNat ≤ 63)
          ∧ a.lane.val = lane.toNat ∧ a.kind = (if kind = 0 then .timing else .level)
          ∧ a.direction = (if direction = 0 then .plus else .minus) ∧ a.stepLimit = steps.toNat
          ∧ a.errorLimit = errors.toNat)
    ∧ ∀ (link : Byte) (more rest : List Byte) (n : Link),
      readLink (link :: more) = some (n, rest) ↔ link.toNat = n.val ∧ rest = more

/-- O35. LINK_MARGIN CANCEL (R29): a link number that is not 0 to 5 is BADARG and no modify permission NOACCESS. A
requested probe is aborted with outcome ABORT_REQUEST, whoever started it, and its starter is told; an admission probe
is left alone with STATE; with no probe in progress it is NOTFOUND and the result record stays. A LINK_MARGIN START
whose link byte is missing or no link number, or, with permission, whose later bytes are missing or not such fields, is
BADARG (R28, R185). Two points are the model's choice: the response of Fn goes after the NOTICE of MARGIN of the same
step (log 12), and a missing link byte fails before the access check and missing later bytes after it (log 20). -/
def Obligations.MarginCancelEndsAProbe : Prop :=
  (∀ (q : Request) (n : Link) (rest : List Byte) (p : Probe) (rq : Requester) (s : State),
      Taken q kindLinkMargin false s → readLink q.args = some (n, rest) →
      mayModify s q.requester .link n.val = true → (s.margin n).probe = some p → p.starter = .request rq →
      ∃ t, exec (.linkMarginCancel q) s = .next t ∧ (t.margin n).probe = none
        ∧ (t.margin n).result = probeResult p p.lastWithin .abortRequest
        ∧ (t.client rq).news &&& Notice.margin.bit = Notice.margin.bit
        ∧ Replied q kindLinkMargin .ok [] s t ∧ Within (.outstanding :: .margins :: asked) s t)
    ∧ (∀ (q : Request) (n : Link) (rest : List Byte) (p : Probe) (s : State),
      Taken q kindLinkMargin false s → readLink q.args = some (n, rest) →
      mayModify s q.requester .link n.val = true → (s.margin n).probe = some p → p.starter = .admission →
      exec (.linkMarginCancel q) s = .next (answered q kindLinkMargin .state [] (arrived q s)))
    ∧ (∀ (q : Request) (n : Link) (rest : List Byte) (s : State),
      Taken q kindLinkMargin false s → readLink q.args = some (n, rest) →
      mayModify s q.requester .link n.val = true → (s.margin n).probe = none →
      exec (.linkMarginCancel q) s = .next (answered q kindLinkMargin .notFound [] (arrived q s)))
    ∧ (∀ (q : Request) (s : State), Taken q kindLinkMargin false s → readLink q.args = none →
      exec (.linkMarginCancel q) s = .next (answered q kindLinkMargin .badArg [] (arrived q s)))
    ∧ (∀ (q : Request) (n : Link) (rest : List Byte) (s : State), Taken q kindLinkMargin false s →
      readLink q.args = some (n, rest) → mayModify s q.requester .link n.val = false →
      exec (.linkMarginCancel q) s = .next (answered q kindLinkMargin .noAccess [] (arrived q s)))
    ∧ (∀ (q : Request) (s : State), Taken q kindLinkMargin false s → readLink q.args = none →
      exec (.linkMarginStart q) s = .next (answered q kindLinkMargin .badArg [] (arrived q s)))
    ∧ ∀ (q : Request) (n : Link) (rest : List Byte) (s : State), Taken q kindLinkMargin false s →
      readLink q.args = some (n, rest) → mayModify s q.requester .link n.val = true → probeArgs rest = none →
      exec (.linkMarginStart q) s = .next (answered q kindLinkMargin .badArg [] (arrived q s))

/-! ### The roster (chapter 3) -/

/-- What an IDENT that fits finds: no identity yet, or one it matches (R40). -/
def identityAgrees (stored : Option Identity) (i : Identity) : Prop := ∀ old ∈ stored, identMatches old i = true

/-- What an admission with a swap pending leaves: the entry has been ACTIVE with the next epoch and the rack time as
admitted-at, and its drain has started with the drain limit in force, or with nothing queued and no block in
transmission is complete (R42, R45, R46, R52). -/
def admittedToDrain (n : Link) (s t : State) : Prop :=
  (t.entry n).epoch = (s.entry n).epoch + 1 ∧ (t.entry n).admittedAt = some s.rack
    ∧ (t.entry n).swapPending = false ∧ (t.entry n).identWait = none ∧ ToldAll .roster t
    ∧ (((s.queues n).expedite ≠ [] ∨ (s.queues n).normal ≠ [] ∨ sendingBlock (s.port n) ≠ none) →
        (t.entry n).state = .draining ∧ (t.entry n).drainEnds = some (s.osc + s.drainLimitMs * millisecondNs)
          ∧ t.queues n = s.queues n ∧ (t.port n).state = (s.port n).state)
    ∧ ((s.queues n).expedite = [] → (s.queues n).normal = [] → sendingBlock (s.port n) = none →
        (t.entry n).state = .quiesced ∧ (t.entry n).drainEnds = none ∧ (t.entry n).lastCause = .none
          ∧ (t.port n).state = .off)

/-- O36. A fitting IDENT in IDENTIFYING that finds no identity or matches it: under AUTO the entry is ACTIVE with the
next epoch and the rack time as admitted-at, and with a swap pending its drain starts at that moment; under MANUAL it
is PENDING. One that does not match takes the entry to FAULTED with cause MISMATCH; any other IDENT has no effect
beyond its count (R40, R42, R183). When the identity wait ends the entry is FAULTED with cause NOIDENT and the port
stays; when the drain limit ends what is left is flushed and counted, the entry is QUIESCED with cause DRAIN_FORCED and
the port OFF (R39, R46, R48, R158). -/
def Obligations.IdentAndLimitsDecide : Prop :=
  (∀ (n : Link) (cell : RxCell) (s : State), (s.port n).state = .up → (s.entry n).state = .identifying →
      cell.body.length = 12 → identFits (identOf cell.body) = true →
      identityAgrees (s.entry n).identity (identOf cell.body) →
      (s.entry n).policy = .auto → (s.entry n).swapPending = false →
      ∃ t, exec (.identReceived n cell) s = .next t ∧ (t.entry n).state = .active
        ∧ (t.entry n).epoch = (s.entry n).epoch + 1 ∧ (t.entry n).admittedAt = some s.rack
        ∧ (t.entry n).identity = some ((s.entry n).identity.getD (identOf cell.body))
        ∧ (t.entry n).identWait = none ∧ t.counter n .cellsIn = satAdd (s.counter n .cellsIn) 1
        ∧ (t.port n).errRun = 0 ∧ ToldAll .roster t ∧ Elsewhere n s t ∧ Within moved s t)
    ∧ (∀ (n : Link) (cell : RxCell) (s : State), (s.port n).state = .up → (s.entry n).state = .identifying →
      cell.body.length = 12 → identFits (identOf cell.body) = true →
      identityAgrees (s.entry n).identity (identOf cell.body) →
      (s.entry n).policy = .auto → (s.entry n).swapPending = true →
      ∃ t, exec (.identReceived n cell) s = .next t ∧ admittedToDrain n s t
        ∧ (t.entry n).identity = some ((s.entry n).identity.getD (identOf cell.body))
        ∧ t.counter n .cellsIn = satAdd (s.counter n .cellsIn) 1 ∧ Elsewhere n s t ∧ Within moved s t)
    ∧ (∀ (n : Link) (cell : RxCell) (s : State), (s.port n).state = .up → (s.entry n).state = .identifying →
      cell.body.length = 12 → identFits (identOf cell.body) = true →
      identityAgrees (s.entry n).identity (identOf cell.body) → (s.entry n).policy = .manual →
      ∃ t, exec (.identReceived n cell) s = .next t ∧ (t.entry n).state = .pending
        ∧ (t.entry n).epoch = (s.entry n).epoch ∧ (t.entry n).admittedAt = (s.entry n).admittedAt
        ∧ (t.entry n).identity = some ((s.entry n).identity.getD (identOf cell.body))
        ∧ (t.entry n).identWait = none ∧ ToldAll .roster t ∧ Elsewhere n s t ∧ Within moved s t)
    ∧ (∀ (n : Link) (cell : RxCell) (old : Identity) (s : State), (s.port n).state = .up →
      (s.entry n).state = .identifying → cell.body.length = 12 → identFits (identOf cell.body) = true →
      (s.entry n).identity = some old → identMatches old (identOf cell.body) = false →
      ∃ t, exec (.identReceived n cell) s = .next t ∧ (t.entry n).state = .faulted
        ∧ (t.entry n).lastCause = .mismatch ∧ (t.entry n).identity = some old ∧ (t.port n).state = .up
        ∧ ToldAll .roster t ∧ Elsewhere n s t ∧ Within moved s t)
    ∧ (∀ (n : Link) (cell : RxCell) (s : State), (s.port n).state = .up →
      cell.body.length ≠ 12 ∨ (s.entry n).state ≠ .identifying ∨ identFits (identOf cell.body) = false →
      exec (.identReceived n cell) s = .next ((s.count n .cellsIn).modPort n fun p => { p with errRun := 0 }))
    ∧ (∀ (n : Link) (ends : Nat) (s : State), (s.entry n).state = .identifying → (s.entry n).identWait = some ends →
      ∃ t, exec (.identityWaitExpiry n) s = .next t ∧ t.osc = max s.osc ends ∧ (t.entry n).state = .faulted
        ∧ (t.entry n).lastCause = .noident ∧ (t.entry n).identWait = none
        ∧ (t.entry n).identity = (s.entry n).identity ∧ (t.port n).service = (s.port n).service
        ∧ ToldAll .roster t ∧ Elsewhere n s t ∧ Within (clocks ++ moved) s t)
    ∧ ∀ (n : Link) (ends : Nat) (s : State), (s.entry n).state = .draining → (s.entry n).drainEnds = some ends →
      (s.port n).state ≠ .off →
      ∃ t, exec (.drainLimitExpiry n) s = .next t ∧ t.osc = max s.osc ends ∧ (t.entry n).state = .quiesced
        ∧ (t.entry n).lastCause = .drainForced ∧ (t.entry n).drainEnds = none ∧ (t.port n).state = .off
        ∧ (t.counter n .flushed).toNat = min ((s.counter n .flushed).toNat + (s.queues n).expedite.length
            + (s.queues n).normal.length + (if (sendingBlock (s.port n)).isSome then 1 else 0)) 4294967295
        ∧ Emptied n t ∧ ToldAll .roster t ∧ ToldAll .link t ∧ Elsewhere n s t ∧ Within (clocks ++ moved) s t

/-- O37. FRAME_ADMIT takes a PENDING entry to ACTIVE with the next epoch, and on to its drain if a swap is pending;
FRAME_RELEASE an ACTIVE entry of the expected epoch to its drain, which with nothing queued and no block in
transmission is complete at once, the entry QUIESCED and the port OFF; FRAME_RESTORE a QUIESCED entry to DETECTED and
its OFF port, if enabled, to DOWN or TRAINING; FRAME_EVICT a PENDING, ACTIVE or DRAINING entry of the expected epoch to
QUIESCED with cause EVICTED and its port to OFF, its routes losing their owner. In other states, or with another epoch,
they are answered STATE and change nothing (R1, R42, R45, R48, R49, R55 to R58). That the response of Fn goes after the
NOTICE of ROSTER or LINK of the same step is the model's choice (log 12). -/
def Obligations.FrameRequestsMoveTheEntry : Prop :=
  (∀ (q : Request) (n : Link) (rest : List Byte) (s : State), Taken q kindFrameAdmit false s →
      readLink q.args = some (n, rest) → mayModify s q.requester .roster n.val = true →
      (s.entry n).state = .pending → (s.entry n).swapPending = false →
      ∃ t, exec (.frameAdmit q) s = .next t ∧ (t.entry n).state = .active
        ∧ (t.entry n).epoch = (s.entry n).epoch + 1 ∧ (t.entry n).admittedAt = some s.rack
        ∧ (t.entry n).identity = (s.entry n).identity ∧ ToldAll .roster t
        ∧ Replied q kindFrameAdmit .ok [] s t ∧ Elsewhere n (arrived q s) t)
    ∧ (∀ (q : Request) (n : Link) (rest : List Byte) (s : State), Taken q kindFrameAdmit false s →
      readLink q.args = some (n, rest) → mayModify s q.requester .roster n.val = true →
      (s.entry n).state = .pending → (s.entry n).swapPending = true →
      ∃ t, exec (.frameAdmit q) s = .next t ∧ admittedToDrain n s t
        ∧ (t.entry n).identity = (s.entry n).identity
        ∧ Replied q kindFrameAdmit .ok [] s t ∧ Elsewhere n (arrived q s) t)
    ∧ (∀ (q : Request) (n : Link) (rest : List Byte) (s : State), Taken q kindFrameAdmit false s →
      readLink q.args = some (n, rest) → mayModify s q.requester .roster n.val = true → (s.entry n).state ≠ .pending →
      exec (.frameAdmit q) s = .next (answered q kindFrameAdmit .state [] (arrived q s)))
    ∧ (∀ (q : Request) (n : Link) (rest : List Byte) (expected : Option Nat) (s : State),
      Taken q kindFrameRelease false s → readLink q.args = some (n, rest) →
      mayModify s q.requester .roster n.val = true → epochArg rest = some expected → (s.entry n).state = .active →
      (∀ x ∈ expected, x = (s.entry n).epoch.toNat) →
      ((s.queues n).expedite ≠ [] ∨ (s.queues n).normal ≠ [] ∨ sendingBlock (s.port n) ≠ none) →
      ∃ t, exec (.frameRelease q) s = .next t ∧ (t.entry n).state = .draining
        ∧ (t.entry n).drainEnds = some (s.osc + s.drainLimitMs * millisecondNs) ∧ ToldAll .roster t
        ∧ Replied q kindFrameRelease .accepted [] s t ∧ Elsewhere n (arrived q s) t)
    ∧ (∀ (q : Request) (n : Link) (rest : List Byte) (expected : Option Nat) (s : State),
      Taken q kindFrameRelease false s → readLink q.args = some (n, rest) →
      mayModify s q.requester .roster n.val = true → epochArg rest = some expected → (s.entry n).state = .active →
      (∀ x ∈ expected, x = (s.entry n).epoch.toNat) →
      (s.queues n).expedite = [] → (s.queues n).normal = [] → sendingBlock (s.port n) = none →
      ∃ t, exec (.frameRelease q) s = .next t ∧ (t.entry n).state = .quiesced ∧ (t.entry n).lastCause = .none
        ∧ (t.entry n).drainEnds = none ∧ (t.entry n).epoch = (s.entry n).epoch ∧ (t.port n).state = .off
        ∧ ToldAll .roster t ∧ (∀ i, ∀ r ∈ t.route i, r.owner ≠ some (.frame n))
        ∧ (∀ i, (t.trig i).owner ≠ some (.frame n))
        ∧ (q.requester ≠ .frame n → Replied q kindFrameRelease .accepted [] s t) ∧ t.busy q.requester = false
        ∧ Elsewhere n (arrived q s) t)
    ∧ (∀ (q : Request) (n : Link) (rest : List Byte) (expected : Option Nat) (s : State),
      Taken q kindFrameRelease false s → readLink q.args = some (n, rest) →
      mayModify s q.requester .roster n.val = true → epochArg rest = some expected →
      (s.entry n).state ≠ .active ∨ (∃ x ∈ expected, x ≠ (s.entry n).epoch.toNat) →
      exec (.frameRelease q) s = .next (answered q kindFrameRelease .state [] (arrived q s)))
    ∧ (∀ (q : Request) (n : Link) (rest : List Byte) (s : State), Taken q kindFrameRestore false s →
      readLink q.args = some (n, rest) → mayModify s q.requester .roster n.val = true →
      (s.entry n).state = .quiesced → (s.port n).state = .off →
      ∃ t, exec (.frameRestore q) s = .next t ∧ (t.entry n).state = .detected
        ∧ (t.entry n).identity = (s.entry n).identity ∧ ToldAll .roster t
        ∧ (t.port n).state
            = (if (s.port n).enabled then downOrTraining n (s.port n).failCount s else .off)
        ∧ Replied q kindFrameRestore .accepted [] s t ∧ Elsewhere n (arrived q s) t)
    ∧ (∀ (q : Request) (n : Link) (rest : List Byte) (s : State), Taken q kindFrameRestore false s →
      readLink q.args = some (n, rest) → mayModify s q.requester .roster n.val = true → (s.entry n).state ≠ .quiesced →
      exec (.frameRestore q) s = .next (answered q kindFrameRestore .state [] (arrived q s)))
    ∧ (∀ (q : Request) (n : Link) (rest : List Byte) (expected : Option Nat) (s : State),
      Taken q kindFrameEvict false s → readLink q.args = some (n, rest) →
      mayModify s q.requester .roster n.val = true → epochArg rest = some expected →
      (s.entry n).state = .pending ∨ (s.entry n).state = .active ∨ (s.entry n).state = .draining →
      (∀ x ∈ expected, x = (s.entry n).epoch.toNat) →
      ∃ t, exec (.frameEvict q) s = .next t ∧ (t.entry n).state = .quiesced ∧ (t.entry n).lastCause = .evicted
        ∧ (t.port n).state = .off ∧ ((s.port n).state ≠ .off → Emptied n t) ∧ ToldAll .roster t
        ∧ (∀ i, ∀ r ∈ t.route i, (s.entry n).state ≠ .pending → r.owner ≠ some (.frame n))
        ∧ (q.requester ≠ .frame n → Replied q kindFrameEvict .ok [] s t) ∧ t.busy q.requester = false
        ∧ Elsewhere n (arrived q s) t)
    ∧ ∀ (q : Request) (n : Link) (rest : List Byte) (expected : Option Nat) (s : State),
      Taken q kindFrameEvict false s → readLink q.args = some (n, rest) →
      mayModify s q.requester .roster n.val = true → epochArg rest = some expected →
      ((s.entry n).state ≠ .pending ∧ (s.entry n).state ≠ .active ∧ (s.entry n).state ≠ .draining)
        ∨ (∃ x ∈ expected, x ≠ (s.entry n).epoch.toNat) →
      exec (.frameEvict q) s = .next (answered q kindFrameEvict .state [] (arrived q s))

/-! ### Settings (R59, R79, R99, R100, R149) -/

/-- O38. ROSTER_CONFIG sets the policies and settings given, clamped, answered CLAMPED if one was (R59); that mask
bits which name no link are ignored is the model's choice (log 24). TIME_SOURCE stores a list that names each link
once, and the source is then the best candidate by it (R79, R99). TIME_CONFIG stores the settings given, clamped; a
free-run trim becomes T at once while the source is INTERNAL; I, the source, the permit and the runs stay, but for a
holdover limit already reached, and HOLDOVER goes on while it is not (R84, R100). A new k moves the next due time of
each running schedule to the last due time plus the new period, or to now where that has passed (R87, R100).
STREAM_CONFIG stores the settings given, clamped, the low watermark against the high watermark as it then stands, and
a given aging interval restarts a running timer (R147, R149); that a stored low watermark is clamped with a lowered
high watermark is the model's choice (log 21), and so is that the response of Fn goes after the NOTICE of TIME of the
same step (log 12). -/
def Obligations.ConfigRequestsStoreSettings : Prop :=
  (∀ (q : Request) (a : RosterArgs) (s : State), Taken q kindRosterConfig false s → rosterArgs q.args = some a →
      ∃ t, exec (.rosterConfig q) s = .next t ∧ q.requester = .rcp
        ∧ t.admitMinSteps = ((a.minSteps.map fun x => min x 31).getD s.admitMinSteps)
        ∧ t.drainLimitMs = ((a.limitMs.map fun x => min (max x 1) 1000).getD s.drainLimitMs)
        ∧ (∀ n : Link, t.entry n = { s.entry n with policy := ((a.policies[n.val]?).join).getD (s.entry n).policy })
        ∧ Replied q kindRosterConfig
            (if a.minSteps.any (fun x => decide (31 < x)) || a.limitMs.any (fun x => decide (x < 1 ∨ 1000 < x))
              then .clamped else .ok) [] s t
        ∧ Within [.roster, .admitMinSteps, .drainLimitMs, .clients, .flags, .rcp] s t)
    ∧ (∀ (q : Request) (list : List Link) (s : State), Taken q kindTimeSource false s →
      mayModify s q.requester .timebase 0 = true → priorityArg q.args = some list → list = s.tb.priority →
      exec (.timeSource q) s = .next (answered q kindTimeSource .ok [] (arrived q s)))
    ∧ (∀ (q : Request) (list : List Link) (s : State), Taken q kindTimeSource false s →
      mayModify s q.requester .timebase 0 = true → priorityArg q.args = some list → list ≠ s.tb.priority →
      ∃ t, exec (.timeSource q) s = .next t ∧ t.tb.priority = list ∧ list.Nodup ∧ list.length = 6 ∧ SourceLaw t
        ∧ Replied q kindTimeSource .ok [] s t ∧ Within (.tb :: .syncs :: .outstanding :: asked) s t)
    ∧ (∀ (q : Request) (a : TimeArgs) (s : State), Taken q kindTimeConfig false s →
      mayModify s q.requester .timebase 0 = true → timeArgs q.args = some a →
      ∃ t, exec (.timeConfig q) s = .next t
        ∧ t.tb.k = ((a.k.map fun x => min x 4).getD s.tb.k)
        ∧ t.tb.window = ((a.window.map fun x => min (max x 20) 1000).getD s.tb.window)
        ∧ t.tb.stepThreshold = ((a.stepThreshold.map fun x => min (max x 1000) 1000000).getD s.tb.stepThreshold)
        ∧ t.tb.holdoverLimit = ((a.holdoverLimit.map fun x => min (max x 1) 3600).getD s.tb.holdoverLimit)
        ∧ t.tb.freeTrim = ((a.freeTrim.map fun x => max (-100000) (min 100000 x)).getD s.tb.freeTrim)
        ∧ t.tb.trim = (if a.freeTrim.isSome ∧ s.tb.source = .internal then t.tb.freeTrim else s.tb.trim)
        ∧ t.tb.integ = s.tb.integ ∧ t.tb.source = s.tb.source ∧ t.tb.permitUsed = s.tb.permitUsed
        ∧ t.tb.priority = s.tb.priority
        ∧ (s.tb.state ≠ .holdover → t.tb.state = s.tb.state ∧ t.tb.good = s.tb.good ∧ t.tb.bad = s.tb.bad
            ∧ t.tb.missing = s.tb.missing)
        ∧ (∀ since, s.tb.state = .holdover → s.tb.holdoverSince = some since →
            since + t.tb.holdoverLimit * 1000000000 ≤ s.osc → t.tb.state = .freerun ∧ ToldAll .time t)
        ∧ (∀ since, s.tb.state = .holdover → s.tb.holdoverSince = some since →
            s.osc < since + t.tb.holdoverLimit * 1000000000 → t.tb.state = .holdover
              ∧ t.tb.holdoverSince = some since ∧ t.tb.good = s.tb.good ∧ t.tb.bad = s.tb.bad
              ∧ t.tb.missing = s.tb.missing)
        ∧ (t.tb.k = s.tb.k → t.syncs = s.syncs)
        ∧ (t.tb.k ≠ s.tb.k → ∀ n : Link,
            (∀ sc last, (s.sync n).schedule = some sc → sc.lastDue = some last →
              (t.sync n).schedule
                  = some { lastDue := some last, nextDue := max (last + 1000000000 / 2 ^ t.tb.k) s.osc }
                ∧ { t.sync n with schedule := none } = { s.sync n with schedule := none })
            ∧ ((∀ sc ∈ (s.sync n).schedule, sc.lastDue = none) → t.sync n = s.sync n))
        ∧ Replied q kindTimeConfig
            (if a.k.any (fun x => decide (4 < x)) || a.window.any (fun x => decide (x < 20 ∨ 1000 < x))
                || a.stepThreshold.any (fun x => decide (x < 1000 ∨ 1000000 < x))
                || a.holdoverLimit.any (fun x => decide (x < 1 ∨ 3600 < x))
                || a.freeTrim.any (fun x => decide (x < -100000 ∨ 100000 < x)) then .clamped else .ok) [] s t
        ∧ Within (.tb :: .syncs :: .outstanding :: asked) s t)
    ∧ ∀ (q : Request) (a : StreamArgs) (s : State), Taken q kindStreamConfig false s → streamArgs q.args = some a →
      ∃ t, exec (.streamConfig q) s = .next t ∧ q.requester = .rcp
        ∧ t.agingInterval = ((a.aging.map fun x => min (max x 1) 255).getD s.agingInterval)
        ∧ t.highMark = ((a.high.map fun x => min (max x 4) 24).getD s.highMark)
        ∧ t.lowMark = min (a.low.getD s.lowMark) (t.highMark - 1)
        ∧ t.holdTime = ((a.hold.map fun x => min (max x 1) 65535).getD s.holdTime)
        ∧ t.agingEnds = (if a.aging.isSome ∧ s.agingEnds.isSome then some (s.osc + t.agingInterval * 1000000000)
            else s.agingEnds)
        ∧ Replied q kindStreamConfig
            (if a.aging.any (fun x => decide (x < 1 ∨ 255 < x)) || a.high.any (fun x => decide (x < 4 ∨ 24 < x))
                || a.hold.any (fun x => decide (x < 1 ∨ 65535 < x))
                || decide (t.highMark - 1 < a.low.getD s.lowMark) then .clamped else .ok) [] s t
        ∧ Within [.agingInterval, .highMark, .lowMark, .holdTime, .agingEnds, .clients, .flags, .rcp] s t

/-! ### Sideband lines (chapter 4) -/

/-- The codes of the lines that a LINES index has and a request may set: PRESENT, SWAPREQ, READY and TRIG of a link,
TRIGIN and TRIGOUT of the panel (Table 4.1 (1), R69, R70). -/
def lineCode (i : Fin 7) (code : Byte) : Prop :=
  (i.val ≤ 5 ∧ code.toNat ≤ 3) ∨ (i.val = 6 ∧ (code.toNat = 4 ∨ code.toNat = 5))

/-- A request about the lines of an index, its kind, and the permission it needs (R68 to R72). -/
def asksLines (c : Instr) (q : Request) (kind : Byte) (allowed : State → Requester → Space → Nat → Bool) : Prop :=
  (c = .lineRead q ∧ kind = kindLineRead ∧ allowed = mayRead)
    ∨ (c = .lineWrite q ∧ kind = kindLineWrite ∧ allowed = mayModify)
    ∨ (c = .lineMode q ∧ kind = kindLineMode ∧ allowed = mayModify)
    ∨ ((c = .lineHoldPreload q ∨ c = .lineHoldSample q) ∧ kind = kindLineHold ∧ allowed = mayModify)

/-- O39. A falling edge, and a rising edge on TRIG outside FUNCTION and INPUT or under a hold, or on TRIGIN in DIRECT
mode, change the pin alone (R66). PULSE_END brings TRIG or TRIGOUT back low at its moment (R65, R67). LINE_WRITE sets
the latch of the line it names and nothing else (R69). LINE_MODE sets the mode, and for TRIG the direction given; a
pulse whose line changes ends; a return of PRESENT to FUNCTION compares the pin with roster presence: a pin found low
empties the entry, one found high brings an EMPTY entry to DETECTED, or on to PROBING with its admission probe where
the link is in service (R36, R37, R65, R67, R70). The line requests are refused with BADARG for an index above 6, with
NOACCESS without permission, and LINE_WRITE and LINE_MODE with BADARG for a line that is not of the index or is ATTN,
and for a value, mode or direction that is none, or a direction for a line other than TRIG (R68 to R72). Three points
are the model's choice: a missing index byte is BADARG before the access check (log 20), a TRIG line that passes from
OUTPUT to INPUT and so lets go of a pin it drove low makes no capture (log 28), and the response of Fn goes after the
NOTICE of ROSTER of the same step (log 12). -/
def Obligations.LinesFollowEdgesAndRequests : Prop :=
  (∀ (n : Link) (s : State), exec (.trigEdge n .falling) s = .next (s.modLine n fun l => { l with trigPin := false }))
    ∧ (∀ (n : Link) (s : State),
      (s.line n).trig.mode = .direct ∨ (s.line n).trigDir = .output ∨ (s.entry n).state = .quiesced →
      exec (.trigEdge n .rising) s = .next (s.modLine n fun l => { l with trigPin := true }))
    ∧ (∀ s : State, exec (.triginEdge .falling) s = .next { s with panel := { s.panel with triginPin := false } })
    ∧ (∀ s : State, s.panel.trigin.mode = .direct →
      exec (.triginEdge .rising) s = .next { s with panel := { s.panel with triginPin := true } })
    ∧ (∀ (n : Link) (ends : Nat) (s : State), (s.line n).pulse = some ends →
      ∃ t, exec (.pulseEnd (.trig n)) s = .next t ∧ t.osc = max s.osc ends
        ∧ t.line n = { s.line n with pulse := none } ∧ (∀ m, m ≠ n → t.line m = s.line m)
        ∧ Within (.lines :: clocks) s t)
    ∧ (∀ (ends : Nat) (s : State), s.panel.trigoutPulse = some ends →
      ∃ t, exec (.pulseEnd .trigout) s = .next t ∧ t.osc = max s.osc ends
        ∧ t.panel = { s.panel with trigoutPulse := none } ∧ Within (.panel :: clocks) s t)
    ∧ (∀ (q : Request) (i : Fin 7) (n : Link) (l : LineName) (v : Bool) (s : State), Taken q kindLineWrite false s →
      indexArg 7 q.args = some i → i.val = n.val → mayModify s q.requester .lines i.val = true →
      lineWriteArgs i.val (q.args.drop 1) = some (l, v) →
      exec (.lineWrite q) s
        = .next (answered q kindLineWrite .ok []
            ((arrived q s).modLine n (modLinkSetting l fun x => { x with latch := v }))))
    ∧ (∀ (q : Request) (i : Fin 7) (l : LineName) (v : Bool) (s : State), Taken q kindLineWrite false s →
      indexArg 7 q.args = some i → i.val = 6 → mayModify s q.requester .lines i.val = true →
      lineWriteArgs i.val (q.args.drop 1) = some (l, v) →
      exec (.lineWrite q) s
        = .next (answered q kindLineWrite .ok []
            { arrived q s with panel := modPanelSetting l (fun x => { x with latch := v }) s.panel }))
    ∧ (∀ (q : Request) (i : Fin 7) (n : Link) (m : LineMode) (d : Option TrigDir) (s : State), Taken q kindLineMode false s →
      indexArg 7 q.args = some i → i.val = n.val → mayModify s q.requester .lines i.val = true →
      lineModeArgs i.val (q.args.drop 1) = some (.trig, m, d) →
      exec (.lineMode q) s
        = .next (answered q kindLineMode .ok [] ((arrived q s).modLine n fun l => { l with
            trig := { l.trig with mode := m }
            trigDir := d.getD l.trigDir
            pulse := if l.trig.mode = m ∧ l.trigDir = d.getD l.trigDir then l.pulse else none })))
    ∧ (∀ (q : Request) (i : Fin 7) (n : Link) (l : LineName) (m : LineMode) (d : Option TrigDir) (s : State),
      Taken q kindLineMode false s → indexArg 7 q.args = some i → i.val = n.val →
      mayModify s q.requester .lines i.val = true → lineModeArgs i.val (q.args.drop 1) = some (l, m, d) →
      l = .ready ∨ l = .swapreq ∨ (l = .present ∧ (m = .direct ∨ (s.line n).present.mode = .function)) →
      exec (.lineMode q) s
        = .next (answered q kindLineMode .ok []
            ((arrived q s).modLine n (modLinkSetting l fun x => { x with mode := m }))))
    ∧ (∀ (q : Request) (i : Fin 7) (l : LineName) (m : LineMode) (d : Option TrigDir) (s : State),
      Taken q kindLineMode false s → indexArg 7 q.args = some i → i.val = 6 →
      mayModify s q.requester .lines i.val = true → lineModeArgs i.val (q.args.drop 1) = some (l, m, d) →
      exec (.lineMode q) s
        = .next (answered q kindLineMode .ok [] { arrived q s with panel := setPanelLine l m s.panel }))
    ∧ (∀ (q : Request) (i : Fin 7) (n : Link) (d : Option TrigDir) (s : State),
      Taken q kindLineMode false s → indexArg 7 q.args = some i → i.val = n.val →
      mayModify s q.requester .lines i.val = true →
      lineModeArgs i.val (q.args.drop 1) = some (.present, .function, d) → (s.line n).present.mode = .direct →
      ∃ t, exec (.lineMode q) s = .next t ∧ (t.line n).present.mode = .function
        ∧ (t.entry n).presence = (s.line n).presentPin
        ∧ ((s.line n).presentPin = (s.entry n).presence → (t.entry n) = s.entry n)
        ∧ ((s.line n).presentPin = false → (s.entry n).presence = true → (t.entry n).state = .empty)
        ∧ ((s.line n).presentPin = true → (s.entry n).presence = false → (s.entry n).state = .empty →
            inService (s.port n).state = false → (t.entry n).state = .detected)
        ∧ ((s.line n).presentPin = true → (s.entry n).presence = false → (s.entry n).state = .empty →
            inService (s.port n).state = true → (t.entry n).state = .probing
              ∧ ∀ l, (s.port n).state = .up → (lanesOf (s.port n).lanes).head? = some l →
                  (t.margin n).probe = some (admissionStart l .plus s.osc))
        ∧ ((s.line n).presentPin = true ∨ (s.entry n).presence = false ∨ q.requester ≠ .frame n →
            Replied q kindLineMode .ok [] s t) ∧ t.busy q.requester = false
        ∧ Elsewhere n (arrived q s) t)
    ∧ (∀ (c : Instr) (q : Request) (kind : Byte) (allowed : State → Requester → Space → Nat → Bool) (s : State),
      asksLines c q kind allowed → Taken q kind false s →
      (indexArg 7 q.args = none → exec c s = .next (answered q kind .badArg [] (arrived q s)))
        ∧ ∀ i, indexArg 7 q.args = some i → allowed s q.requester .lines i.val = false →
            exec c s = .next (answered q kind .noAccess [] (arrived q s)))
    ∧ (∀ (q : Request) (i : Fin 7) (index line value : Byte) (rest : List Byte) (s : State),
      Taken q kindLineWrite false s → q.args = index :: line :: value :: rest → index.toNat = i.val →
      mayModify s q.requester .lines i.val = true → ¬ lineCode i line ∨ 1 < value.toNat →
      exec (.lineWrite q) s = .next (answered q kindLineWrite .badArg [] (arrived q s)))
    ∧ ∀ (q : Request) (i : Fin 7) (index line mode given : Byte) (rest : List Byte) (s : State),
      Taken q kindLineMode false s → q.args = index :: line :: mode :: given :: rest → index.toNat = i.val →
      mayModify s q.requester .lines i.val = true →
      ¬ lineCode i line ∨ 1 < mode.toNat
        ∨ (given = 1 ∧ (line ≠ 3 ∨ ∀ dir more, rest = dir :: more → 1 < dir.toNat)) →
      exec (.lineMode q) s = .next (answered q kindLineMode .badArg [] (arrived q s))

/-- O40. LINE_HOLD writes the hold record, PRELOAD with the values given and SAMPLE with what READY and TRIG drive at
that moment, and is refused with STATE while the record is in use, and with BADARG for index 6 or a value that is none
of Table 4.6 (1). While the entry is QUIESCED the record alone sets the two pins: a link sampled and then quiesced
keeps both levels (R71 to R73). -/
def Obligations.HoldRecordsSetThePins : Prop :=
  (∀ (q : Request) (i : Fin 7) (n : Link) (ready : Bool) (drive : TrigDrive) (s : State), Taken q kindLineHold false s →
      indexArg 7 q.args = some i → i.val = n.val → mayModify s q.requester .lines i.val = true →
      holdArgs (q.args.drop 1) = some (ready, drive) → (s.entry n).state ≠ .quiesced →
      exec (.lineHoldPreload q) s
        = .next (answered q kindLineHold .ok []
            ((arrived q s).modLine n fun l => { l with hold := { l.hold with ready := ready, trig := drive } })))
    ∧ (∀ (q : Request) (i : Fin 7) (n : Link) (s : State), Taken q kindLineHold false s →
      indexArg 7 q.args = some i → i.val = n.val → mayModify s q.requester .lines i.val = true →
      (s.entry n).state ≠ .quiesced →
      ∃ t, exec (.lineHoldSample q) s = .next t
        ∧ readyLevel (t.modEntry n fun e => { e with state := .quiesced }) n = readyLevel s n
        ∧ trigDriven (t.modEntry n fun e => { e with state := .quiesced }) n = trigDriven s n
        ∧ t.line n = { s.line n with hold := (t.line n).hold } ∧ (∀ m, m ≠ n → t.line m = s.line m)
        ∧ Replied q kindLineHold .ok [] s t ∧ Within (.lines :: .settings :: asked) s t)
    ∧ (∀ (q : Request) (i : Fin 7) (n : Link) (s : State), Taken q kindLineHold false s →
      indexArg 7 q.args = some i → i.val = n.val → mayModify s q.requester .lines i.val = true →
      (s.entry n).state = .quiesced →
      exec (.lineHoldSample q) s = .next (answered q kindLineHold .state [] (arrived q s))
        ∧ ∀ x, holdArgs (q.args.drop 1) = some x →
            exec (.lineHoldPreload q) s = .next (answered q kindLineHold .state [] (arrived q s)))
    ∧ (∀ (q : Request) (i : Fin 7) (s : State), Taken q kindLineHold false s → indexArg 7 q.args = some i →
      mayModify s q.requester .lines i.val = true →
      (i.val = 6 → exec (.lineHoldSample q) s = .next (answered q kindLineHold .badArg [] (arrived q s)))
        ∧ ∀ index op ready drive rest, q.args = index :: op :: ready :: drive :: rest →
            i.val = 6 ∨ 1 < ready.toNat ∨ 2 < drive.toNat →
            exec (.lineHoldPreload q) s = .next (answered q kindLineHold .badArg [] (arrived q s)))
    ∧ ∀ (n : Link) (s : State), (s.entry n).state = .quiesced →
      readyLevel s n = (s.line n).hold.ready
        ∧ (trigDriven s n = none ↔ (s.line n).hold.trig = .released)
        ∧ (trigDriven s n = some true ↔ (s.line n).hold.trig = .drivenHigh)

/-! ### Rack time (chapters 5 and 6) -/

/-- O41. While no 64-bit count overflows, letting a and then b ns of oscillator time pass is the same as letting a + b
pass at once, and the rack time gains dt * (1 + T * 10^-9) with its fraction carried, for T not below -10^9 ppb (R76;
R96 keeps T within 100,000 ppb). On a cable of delay d in each direction, a frame that holds the reply for w ns and
whose time is ahead by x is measured as it is: the delay of the exchange is d and its offset against d is x (R92, R93).
-/
def Obligations.TimeAndDelayAreExact : Prop :=
  (∀ (a b : Nat) (s : State), s.fracRem < 1000000000 →
      s.rack.toNat + (a + b) * rackRate s / 1000000000 + 1 < 2 ^ 64 →
      advance b (advance a s) = advance (a + b) s
        ∧ (advance a s).rack.toNat
            = s.rack.toNat
              + (if s.resetAsserted then 0
                 else (rackPhase s + a * rackRate s * 4294967296) / (4294967296 * 1000000000)))
    ∧ (∀ s : State, -1000000000 ≤ s.tb.trim → (rackRate s : Int) = 1000000000 + s.tb.trim)
    ∧ ∀ (t1 d w : Nat) (x : Int), d ≤ 5000 → w < 2 ^ 62 → x.natAbs < 2 ^ 40 →
      let t : Stamps :=
        { t1 := BitVec.ofNat 64 t1
          t2 := BitVec.ofInt 64 (t1 + d + x)
          t3 := BitVec.ofInt 64 (t1 + d + x + w)
          t4 := BitVec.ofNat 64 (t1 + d + w + d) }
      roundTrip t = 2 * d ∧ exchangeDelay t = d ∧ stampA t - d = x

/-- An exchange of the source link has counted as missing: the fourth in succession leads from ACQUIRING or LOCKED to
HOLDOVER with T frozen at I and the source kept (R83, R94). -/
def sourceMissed (s t : State) : Prop :=
  t.tb.source = s.tb.source ∧ t.tb.integ = s.tb.integ ∧ t.tb.good = 0 ∧ t.tb.bad = 0
    ∧ (s.tb.missing < 3 → t.tb.missing = s.tb.missing + 1 ∧ t.tb.state = s.tb.state ∧ t.tb.trim = s.tb.trim)
    ∧ (3 ≤ s.tb.missing → s.tb.state = .acquiring ∨ s.tb.state = .locked →
        t.tb.state = .holdover ∧ t.tb.trim = s.tb.integ ∧ t.tb.missing = 0 ∧ t.tb.holdoverSince = some t.osc
          ∧ ToldAll .time t)
    ∧ (3 ≤ s.tb.missing → s.tb.state = .holdover ∨ s.tb.state = .freerun →
        t.tb.state = s.tb.state ∧ t.tb.trim = s.tb.trim ∧ t.tb.missing = 4)

/-- O42. An exchange falls due: its number rises by 1, a SYNC_REQ with it goes to the arbiter, first of all that
waits, and the next due time is one period on. While an exchange is open none is sent; in RECOVERY the new one closes
at once; each of these counts as missing, for a follower and for a source that is eligible (R83, R87 to R89, R94,
R105). -/
def Obligations.ExchangesFallDue : Prop :=
  (∀ (n : Link) (sc : Schedule) (s : State), (s.sync n).schedule = some sc → (s.sync n).exchange = none →
      (s.port n).state = .up →
      ∃ t, exec (.exchangeDue n) s = .next t ∧ t.osc = max s.osc sc.nextDue
        ∧ t.sync n = { s.sync n with
            number := (s.sync n).number + 1
            exchange := some { number := (s.sync n).number + 1, t1 := none, limit := none, stale := false }
            schedule := some { lastDue := some sc.nextDue, nextDue := sc.nextDue + 1000000000 / 2 ^ s.tb.k } }
        ∧ (∀ m, m ≠ n → t.sync m = s.sync m)
        ∧ ((s.port n).tx = none → (s.port n).waitSync = [] →
            (t.port n).tx = some (.cell (.sync (.req ((s.sync n).number + 1)))))
        ∧ ((s.port n).tx ≠ none →
            (t.port n).waitSync = (s.port n).waitSync ++ [.req ((s.sync n).number + 1)] ∧ (t.port n).tx = (s.port n).tx)
        ∧ Within (clocks ++ [.ports, .syncs]) s t)
    ∧ (∀ (n : Link) (sc : Schedule) (s : State), (s.sync n).schedule = some sc → (s.sync n).exchange = none →
      (s.port n).state = .recovery → syncRole s n = .follower →
      ∃ t, exec (.exchangeDue n) s = .next t ∧ (t.sync n).number = (s.sync n).number + 1 ∧ (t.sync n).exchange = none
        ∧ (t.sync n).delay = (s.sync n).delay ∧ (t.sync n).within = 0
        ∧ ((s.sync n).missing < 3 →
            (t.sync n).missing = (s.sync n).missing + 1 ∧ (t.sync n).follower = (s.sync n).follower)
        ∧ Within (clocks ++ [.syncs]) s t)
    ∧ (∀ (n : Link) (sc : Schedule) (x : Exchange) (s : State), (s.sync n).schedule = some sc →
      (s.sync n).exchange = some x → syncRole s n = .follower →
      ∃ t, exec (.exchangeDue n) s = .next t ∧ (t.sync n).number = (s.sync n).number ∧ (t.sync n).exchange = some x
        ∧ (t.sync n).within = 0
        ∧ ((s.sync n).missing < 3 →
            (t.sync n).missing = (s.sync n).missing + 1 ∧ (t.sync n).follower = (s.sync n).follower)
        ∧ Within (clocks ++ [.syncs]) s t)
    ∧ ∀ (n : Link) (sc : Schedule) (s : State), (s.sync n).schedule = some sc → s.tb.source = .link n →
      eligible s n = true → (s.sync n).exchange ≠ none ∨ (s.port n).state = .recovery →
      ∃ t, exec (.exchangeDue n) s = .next t ∧ t.osc = max s.osc sc.nextDue
        ∧ t.sync n = { s.sync n with
            number := if (s.sync n).exchange = none then (s.sync n).number + 1 else (s.sync n).number
            schedule := some { lastDue := some sc.nextDue, nextDue := sc.nextDue + 1000000000 / 2 ^ s.tb.k } }
        ∧ (∀ m, m ≠ n → t.sync m = s.sync m) ∧ sourceMissed s t ∧ Within (clocks ++ sourced) s t

/-- O43. The reply limit closes the open exchange as missing for the role of the link: the fourth in succession makes a
follower UNTIMED and takes a LOCKED or ACQUIRING timebase to HOLDOVER with T frozen at I and the source kept (R83, R89,
R94, R105, R106). On a link that is not eligible, source or not, the exchange closes and is counted in no run (R89). The
holdover limit takes HOLDOVER to FREERUN with T and the source kept (R84). -/
def Obligations.SyncLimitsExpire : Prop :=
  (∀ (n : Link) (x : Exchange) (ends : Nat) (s : State), (s.sync n).exchange = some x → x.limit = some ends →
      syncRole s n = .follower →
      ∃ t, exec (.replyLimitExpiry n) s = .next t ∧ t.osc = max s.osc ends ∧ (t.sync n).exchange = none
        ∧ (t.sync n).delay = (s.sync n).delay ∧ (t.sync n).within = 0 ∧ (t.sync n).beyond = 0
        ∧ ((s.sync n).missing < 3 →
            (t.sync n).missing = (s.sync n).missing + 1 ∧ (t.sync n).follower = (s.sync n).follower)
        ∧ (3 ≤ (s.sync n).missing → (t.sync n).follower = .untimed) ∧ Within (clocks ++ [.syncs]) s t)
    ∧ (∀ (n : Link) (x : Exchange) (ends : Nat) (s : State), (s.sync n).exchange = some x → x.limit = some ends →
      s.tb.source = .link n → eligible s n = true →
      ∃ t, exec (.replyLimitExpiry n) s = .next t ∧ t.osc = max s.osc ends
        ∧ t.sync n = { s.sync n with exchange := none } ∧ sourceMissed s t ∧ Within (clocks ++ sourced) s t)
    ∧ (∀ (n : Link) (x : Exchange) (ends : Nat) (s : State), (s.sync n).exchange = some x → x.limit = some ends →
      eligible s n = false →
      ∃ t, exec (.replyLimitExpiry n) s = .next t ∧ t.osc = max s.osc ends
        ∧ t.sync n = { s.sync n with exchange := none } ∧ (∀ m, m ≠ n → t.sync m = s.sync m)
        ∧ Within (clocks ++ [.syncs]) s t)
    ∧ ∀ (since : Nat) (s : State), s.tb.state = .holdover → s.tb.holdoverSince = some since →
      ∃ t, exec .holdoverLimitExpiry s = .next t ∧ t.osc = max s.osc (since + s.tb.holdoverLimit * 1000000000)
        ∧ t.tb = { s.tb with state := .freerun, holdoverSince := none, good := 0, bad := 0, missing := 0 }
        ∧ ToldAll .time t ∧ Within (clocks ++ [.tb, .ports, .clients, .outstanding]) s t

/-- The stamps of a reply taken now: t2 and t3 are bytes 0 to 7 and 8 to 15 of its body, and t4 is the rack time (R77,
R89, Table 11.2 (1)). -/
def replyStamps (cell : RxCell) (t1 : Time) (s : State) : Stamps :=
  { t1 := t1
    t2 := BitVec.ofNat 64 (beNat (cell.body.take 8))
    t3 := BitVec.ofNat 64 (beNat ((cell.body.drop 8).take 8))
    t4 := s.rack }

/-- The grade field of a reply, byte 16 of its body (Table 11.2 (1)). -/
def replyGrade (cell : RxCell) : Nat := (cell.body.getD 16 0).toNat

/-- A = t2 - t1, modulo 2^64 and read as signed (R92, stage 1). -/
def aheadBy (x : Stamps) : Int := (x.t2 - x.t1).toInt

/-- R = (t4 - t1) - (t3 - t2), each difference modulo 2^64 and read as signed (R92, stages 1 and 2). -/
def onCable (x : Stamps) : Int := (x.t4 - x.t1).toInt - (x.t3 - x.t2).toInt

/-- What a used exchange of delay `x` makes of the delay estimate `old` and the shift count `count` (R92, stage 3,
R107): an absent estimate becomes `x`, with shift count 0. A difference of 50 ns or less sets the count to 0 and a
larger one adds 1; the third in succession is a cable change, which replaces the estimate by `x` and sets the count to
0. Without one the estimate moves by trunc(difference / 8). -/
def delayTaken (old : Option Nat) (count x d shift : Nat) (cable : Bool) : Prop :=
  (old = none → d = x ∧ shift = 0 ∧ cable = false)
    ∧ ∀ before ∈ old,
      let gap : Int := (x : Int) - before
      if gap.natAbs ≤ 50 then (d : Int) = before + Int.tdiv gap 8 ∧ shift = 0 ∧ cable = false
      else if count < 2 then (d : Int) = before + Int.tdiv gap 8 ∧ shift = count + 1 ∧ cable = false
      else d = x ∧ shift = 0 ∧ cable = true

/-- The delay estimate, shift count and cable change that a reply taken now on link `n` would produce: its delay is
floor(R / 2) (R92, R107). -/
def delayProduced (n : Link) (cell : RxCell) (t1 : Time) (d shift : Nat) (cable : Bool) (s : State) : Prop :=
  delayTaken (s.sync n).delay (s.sync n).shift (onCable (replyStamps cell t1 s) / 2).toNat d shift cable

/-- A reply that closes exchange `x` fails a test of R90: a stamp marked invalid, a grade above 3, a round trip below 0
or above 10,000 ns, a stale exchange, or an offset of 2^40 ns or more with the delay estimate it would produce. -/
def replyFails (n : Link) (x : Exchange) (cell : RxCell) (t1 : Time) (s : State) : Prop :=
  cell.flags.getLsbD 2 = false ∨ cell.flags.getLsbD 3 = false ∨ 3 < replyGrade cell
    ∨ onCable (replyStamps cell t1 s) < 0 ∨ 10000 < onCable (replyStamps cell t1 s) ∨ x.stale = true
    ∨ ∃ d shift cable, delayProduced n cell t1 d shift cable s
        ∧ 2 ^ 40 ≤ (aheadBy (replyStamps cell t1 s) - d).natAbs

/-- O44. A SYNC_REPLY that matches no running exchange is counted in SYNC_DISCARDED and changes nothing else; one that
matches on a link no longer eligible also closes the exchange. One that fails a test of R90 closes it, is counted in
SYNC_DISCARDED, and leaves D, the shift count, the reply grade, the last offset and the last delay shift: an invalid
stamp, a grade above 3, a round trip below 0 or above 10,000 ns, an offset of 2^40 ns or more, or a stale exchange. It
counts as missing for the role of the link: a follower's fourth in succession makes it UNTIMED, and the source's leads
from ACQUIRING or LOCKED to HOLDOVER (R83, R89, R90, R92 to R94, R105 to R107, R183). -/
def Obligations.UnusableRepliesAreDiscarded : Prop :=
  (∀ (n : Link) (cell : RxCell) (s : State), (s.port n).state = .up →
      cell.body.length ≠ 20 ∨ (∀ x ∈ (s.sync n).exchange,
        x.t1 = none ∨ x.limit = none ∨ x.number ≠ cell.sequence) →
      exec (.syncReplyReceived n cell) s
        = .next (((s.count n .cellsIn).modPort n fun p => { p with errRun := 0 }).count n .syncDiscarded))
    ∧ (∀ (n : Link) (cell : RxCell) (x : Exchange) (s : State), (s.port n).state = .up → cell.body.length = 20 →
      (s.sync n).exchange = some x → x.t1.isSome = true → x.limit.isSome = true → x.number = cell.sequence →
      eligible s n = false →
      exec (.syncReplyReceived n cell) s
        = .next ((((s.count n .cellsIn).modPort n fun p => { p with errRun := 0 }).modSync n fun l =>
            { l with exchange := none }).count n .syncDiscarded))
    ∧ ∀ (n : Link) (cell : RxCell) (x : Exchange) (t1 : Time) (s : State), (s.port n).state = .up →
      cell.body.length = 20 → (s.sync n).exchange = some x → x.t1 = some t1 → x.limit.isSome = true →
      x.number = cell.sequence → eligible s n = true →
      replyFails n x cell t1 s →
      ∃ t, exec (.syncReplyReceived n cell) s = .next t
        ∧ t.counter n .syncDiscarded = satAdd (s.counter n .syncDiscarded) 1 ∧ (t.sync n).exchange = none
        ∧ (t.sync n).delay = (s.sync n).delay ∧ (t.sync n).grade = (s.sync n).grade
        ∧ (t.sync n).shift = (s.sync n).shift ∧ (t.sync n).lastOffset = (s.sync n).lastOffset
        ∧ (t.sync n).lastShift = (s.sync n).lastShift
        ∧ t.tb.trim = (if t.tb.state = s.tb.state then s.tb.trim else s.tb.integ)
        ∧ (s.tb.source ≠ .link n →
            t.tb = s.tb ∧ (t.sync n).within = 0 ∧ (t.sync n).beyond = 0
              ∧ ((s.sync n).missing < 3 →
                  (t.sync n).missing = (s.sync n).missing + 1 ∧ (t.sync n).follower = (s.sync n).follower)
              ∧ (3 ≤ (s.sync n).missing → (t.sync n).follower = .untimed
                  ∧ (t.sync n).missing = (if (s.sync n).follower = .untimed then 4 else 0)))
        ∧ (s.tb.source = .link n → sourceMissed s t)
        ∧ Within (.service :: .counters :: sourced) s t

/-- A SYNC_REPLY that closes the open exchange of link `n`, which is eligible, and passes every test of R90: `d`,
`shift` and `cable` are what R92 and R107 make of its delay, `theta` is its offset A - d (R89, R90, R92, R93). -/
def usedReply (n : Link) (cell : RxCell) (t1 : Time) (d shift : Nat) (cable : Bool) (theta : Int) (s : State) : Prop :=
  (s.port n).state = .up ∧ cell.body.length = 20 ∧ eligible s n = true
    ∧ (∃ x, (s.sync n).exchange = some x ∧ x.t1 = some t1 ∧ x.limit.isSome = true ∧ x.number = cell.sequence
        ∧ x.stale = false)
    ∧ cell.flags.getLsbD 2 = true ∧ cell.flags.getLsbD 3 = true ∧ replyGrade cell ≤ 3
    ∧ 0 ≤ onCable (replyStamps cell t1 s) ∧ onCable (replyStamps cell t1 s) ≤ 10000
    ∧ delayProduced n cell t1 d shift cable s
    ∧ theta = aheadBy (replyStamps cell t1 s) - d ∧ theta.natAbs < 2 ^ 40

/-- What a used reply leaves of the link's sync state, in every role (R91, R92, R107). -/
def replyApplied (n : Link) (cell : RxCell) (d shift : Nat) (cable : Bool) (theta : Int) (s t : State) : Prop :=
  (t.sync n).exchange = none ∧ (t.sync n).delay = some d ∧ (t.sync n).shift = shift
    ∧ (t.sync n).grade = some (replyGrade cell) ∧ (t.sync n).lastOffset = some theta
    ∧ (cable = true → ToldAll .link t
        ∧ (t.sync n).lastShift = some { moment := s.rack, before := (s.sync n).delay.getD 0, after := d })
    ∧ (cable = false → (t.sync n).lastShift = (s.sync n).lastShift)

/-- A reported grade `g` of link `n`, which is not the source, leaves the source the best candidate, or leaves none:
the entry is not ACTIVE, the grade is 0, or it stands behind that of the source (R78, R79). -/
def keepsSource (s : State) (n : Link) (g : Nat) : Prop :=
  (s.entry n).state ≠ .active ∨ g = 0
    ∨ ∃ m, s.tb.source = .link m
        ∧ (g < reportedGrade s m
          ∨ (g = reportedGrade s m ∧ ∃ before after, s.tb.priority = before ++ n :: after ∧ n ∉ before ∧ m ∈ before))

/-- With a reported grade `g`, link `n` is the best candidate (R78, R79). -/
def bestWith (s : State) (n : Link) (g : Nat) : Prop :=
  (s.entry n).state = .active ∧ 1 ≤ g
    ∧ ∃ before after, s.tb.priority = before ++ n :: after
        ∧ (∀ m ∈ before, m ≠ n → candidate s m = true → reportedGrade s m < g)
        ∧ ∀ m ∈ after, m ≠ n → candidate s m = true → reportedGrade s m ≤ g

/-- O45. A used reply of a link that is not the source, ACTIVE or not, under a grade that leaves the source as it is:
D, the shift count, the reply grade and the last offset follow the exchange: an absent D becomes the delay of the
exchange, and a present one moves by an eighth of the difference, which counts if it is above 50 ns; the third such in
succession is a cable change and replaces D (R92, R107). The follower state and its three runs are counted: from
UNTIMED, and after a cable change, as the first exchange of SETTLING; the fourth within the lock window in succession
is TIMED, and the second beyond four windows SETTLING again, with the runs 0. The SYNC_RESULT with the state that
results joins the SYNC cells, or goes out at once on an idle transmitter that no NOTICE of a cable change takes first.
The timebase is not touched (R78, R79, R91 to R93, R104 to R108). A reply whose grade makes its link the best candidate
makes it the source, in ACQUIRING, and its follower state UNTIMED (R79, R80, R91, R110). -/
def Obligations.FollowerRepliesAreUsed : Prop :=
  (∀ (n : Link) (cell : RxCell) (t1 : Time) (d shift : Nat) (cable : Bool) (theta : Int) (s : State),
      usedReply n cell t1 d shift cable theta s → SourceLaw s → s.tb.source ≠ .link n →
      keepsSource s n (replyGrade cell) →
      ∃ t, exec (.syncReplyReceived n cell) s = .next t ∧ replyApplied n cell d shift cable theta s t ∧ t.tb = s.tb
        ∧ (cable = true ∨ (s.sync n).follower = .untimed →
            (t.sync n).follower = .settling ∧ (t.sync n).within = (if theta.natAbs ≤ s.tb.window then 1 else 0)
              ∧ (t.sync n).beyond = 0)
        ∧ (cable = false →
            ((s.sync n).follower = .settling →
                (t.sync n).follower
                    = (if theta.natAbs ≤ s.tb.window ∧ 3 ≤ (s.sync n).within then .timed else .settling)
                  ∧ (t.sync n).within
                    = (if theta.natAbs ≤ s.tb.window ∧ (s.sync n).within < 3 then (s.sync n).within + 1 else 0)
                  ∧ (t.sync n).beyond = 0)
            ∧ ((s.sync n).follower = .timed →
                (t.sync n).follower
                    = (if 4 * s.tb.window < theta.natAbs ∧ 1 ≤ (s.sync n).beyond then .settling else .timed)
                  ∧ (t.sync n).within = 0
                  ∧ (t.sync n).beyond
                    = (if 4 * s.tb.window < theta.natAbs ∧ (s.sync n).beyond = 0 then 1 else 0)))
        ∧ (t.sync n).missing = 0
        ∧ ((s.port n).tx ≠ none →
            (t.port n).waitSync
              = (s.port n).waitSync ++ [.result cell.sequence theta d (t.sync n).follower s.tb.state])
        ∧ ((s.port n).tx = none → (s.port n).waitSync = [] → cable = false ∨ s.outstanding[n] = true →
            (t.port n).tx = some (.cell (.sync (.result cell.sequence theta d (t.sync n).follower s.tb.state))))
        ∧ Within (.service :: .counters :: sourced) s t)
    ∧ ∀ (n : Link) (cell : RxCell) (t1 : Time) (d shift : Nat) (cable : Bool) (theta : Int) (s : State),
      usedReply n cell t1 d shift cable theta s → s.tb.source ≠ .link n → bestWith s n (replyGrade cell) →
      ∃ t, exec (.syncReplyReceived n cell) s = .next t ∧ replyApplied n cell d shift cable theta s t
        ∧ t.tb.source = .link n ∧ t.tb.state = .acquiring ∧ t.tb.holdoverSince = none ∧ ToldAll .time t
        ∧ (t.sync n).follower = .untimed
        ∧ (s.tb.permitUsed = true ∨ theta.natAbs ≤ s.tb.stepThreshold →
            t.rack = s.rack ∧ t.tb.good = (if theta.natAbs ≤ s.tb.window then 1 else 0) ∧ t.tb.missing = 0
              ∧ t.tb.permitUsed = s.tb.permitUsed)
        ∧ Within (.service :: stepped) s t

/-- Steering by an offset of `theta` ns (R96). -/
def steered (theta : Int) (s t : State) : Prop :=
  t.tb.integ = max (-100000) (min 100000 (s.tb.integ + Int.tdiv (theta * 2 ^ s.tb.k) 64))
    ∧ t.tb.trim = max (-100000) (min 100000 (t.tb.integ + Int.tdiv (theta * 2 ^ s.tb.k) 4))

/-- Trigger entry `i` is ARMED and its send time is at or before the rack time `r` (R121). -/
def dueAt (s : State) (r : Nat) (i : TrigIx) : Prop :=
  (s.trig i).state = .armed ∧ (s.trig i).compare.toNat ≤ r + s.lead

/-- What a step of rack time forward to `r` makes of the triggers and the holds: each pending pulse it has passed is
over; an entry that is not due is otherwise as it was; the one entry due sends once, late, its last instance ends it,
and an ON_CAPTURE entry with more waits again (R126); each hold it has passed is renewed while its egress queue is
above the low watermark, and removed otherwise (R163). -/
def steppedForward (r : Nat) (s t : State) : Prop :=
  (∀ i, ¬ dueAt s r i →
      t.trig i = { s.trig i with pulse := (s.trig i).pulse.filter fun p => decide (r < p.compare.toNat) })
    ∧ (∀ i, dueAt s r i → (∀ j, j ≠ i → ¬ dueAt s r j) →
        (t.trig i).fires = satAdd (s.trig i).fires 1
          ∧ ((s.trig i).repeats = 1 ∨ ((s.trig i).mode = .atTime ∧ (s.trig i).period = 0) →
              (t.trig i).state = .done ∧ (t.trig i).outcome = .late
                ∧ ∀ rq, (s.trig i).owner = some rq → (t.client rq).news &&& Notice.trigger.bit = Notice.trigger.bit)
          ∧ ((s.trig i).repeats ≠ 1 → (s.trig i).mode = .onCapture →
              (t.trig i).state = .waiting ∧ (t.trig i).repeats = (s.trig i).repeats - 1)
          ∧ ((s.trig i).compare.toNat ≤ r → (t.trig i).pulse = none)
          ∧ ∀ m : Link, (s.trig i).targets.getLsbD m = true →
              (targetEligible s m = true → (s.port m).tx ≠ none →
                (t.port m).waitTrig = (s.port m).waitTrig
                  ++ [{ compare := (s.trig i).compare, code := (s.trig i).code, index := i, late := true }])
              ∧ (targetEligible s m = false → t.counter m .trigMissed = satAdd (s.counter m .trigMissed) 1))
    ∧ ((s.holds.map fun h => (h.stream, h.egress)).Nodup → r + s.holdTime * 1000 < 2 ^ 64 →
        t.holds = (s.holds.filter fun h =>
            decide (r < h.expiry.toNat) || decide (s.lowMark < (s.queues h.egress).normal.length)).map fun h =>
              if h.expiry.toNat ≤ r then { h with expiry := BitVec.ofNat 64 (r + s.holdTime * 1000) } else h)

/-- O46. A used reply of the source, which stays the best candidate by grade and then by priority. D is updated, with
the cable-change test, as on any link (R92, R107). In LOCKED, and in ACQUIRING without a step: I moves by trunc(theta *
2^k / 64), T becomes I plus trunc(theta * 2^k / 4), both clamped to 100,000 ppb, and the runs follow the lock window;
the eighth good offset in succession locks, with the permit USED, and the third in succession beyond four windows
leaves LOCKED (R82, R91 to R96). In ACQUIRING, with the permit UNUSED and the offset above the threshold, the rack time
steps by theta, not below 0, with T and I kept, the runs 0 and the permit USED; open exchanges whose t1 was taken are
stale; a step forward sends the triggers it has passed late, makes the pulses it has passed and deals with the holds it
has passed, and one backward leaves them alone (R95, R97, R126, R163). In HOLDOVER and FREERUN the second good exchange
returns to ACQUIRING without steering (R84, R91). -/
def Obligations.SourceRepliesSteer : Prop :=
  ∀ (n : Link) (cell : RxCell) (t1 : Time) (d shift : Nat) (cable : Bool) (theta : Int) (s : State),
    usedReply n cell t1 d shift cable theta s → s.tb.source = .link n → bestWith s n (replyGrade cell) →
    ∃ t, exec (.syncReplyReceived n cell) s = .next t ∧ replyApplied n cell d shift cable theta s t
      ∧ t.tb.source = .link n
      ∧ (s.tb.state = .locked →
          steered theta s t ∧ t.rack = s.rack
            ∧ (theta.natAbs ≤ s.tb.window → t.tb.state = .locked ∧ t.tb.good = min (s.tb.good + 1) 8 ∧ t.tb.bad = 0)
            ∧ (s.tb.window < theta.natAbs → theta.natAbs ≤ 4 * s.tb.window →
                t.tb.state = .locked ∧ t.tb.good = 0 ∧ t.tb.bad = 0)
            ∧ (4 * s.tb.window < theta.natAbs → s.tb.bad < 2 → t.tb.state = .locked ∧ t.tb.bad = s.tb.bad + 1)
            ∧ (4 * s.tb.window < theta.natAbs → 2 ≤ s.tb.bad →
                t.tb.state = .acquiring ∧ t.tb.bad = 0 ∧ ToldAll .time t)
            ∧ Within (.service :: .counters :: sourced) s t)
      ∧ (s.tb.state = .acquiring → s.tb.permitUsed = true ∨ theta.natAbs ≤ s.tb.stepThreshold →
          steered theta s t ∧ t.rack = s.rack ∧ t.tb.missing = 0
            ∧ (theta.natAbs ≤ s.tb.window → 7 ≤ s.tb.good →
                t.tb.state = .locked ∧ t.tb.permitUsed = true ∧ t.tb.good = 0 ∧ t.tb.bad = 0 ∧ ToldAll .time t)
            ∧ (theta.natAbs ≤ s.tb.window → s.tb.good < 7 →
                t.tb.state = .acquiring ∧ t.tb.permitUsed = s.tb.permitUsed ∧ t.tb.good = s.tb.good + 1 ∧ t.tb.bad = 0)
            ∧ (s.tb.window < theta.natAbs →
                t.tb.state = .acquiring ∧ t.tb.permitUsed = s.tb.permitUsed ∧ t.tb.good = 0
                  ∧ t.tb.bad = (if theta.natAbs ≤ 4 * s.tb.window then 0 else min (s.tb.bad + 1) 3))
            ∧ Within (.service :: .counters :: sourced) s t)
      ∧ (s.tb.state = .acquiring → s.tb.permitUsed = false → s.tb.stepThreshold < theta.natAbs →
          t.tb = { s.tb with permitUsed := true, good := 0, bad := 0, missing := 0 } ∧ ToldAll .time t
            ∧ (∀ m x, m ≠ n → (s.sync m).exchange = some x →
                (t.sync m).exchange = some (if x.t1.isSome then { x with stale := true } else x))
            ∧ (∀ r : Nat, (r : Int) = max 0 ((s.rack.toNat : Int) + theta) → r < 2 ^ 64 →
                t.rack = BitVec.ofNat 64 r ∧ (0 < theta → steppedForward r s t))
            ∧ (theta < 0 → t.trigs = s.trigs ∧ t.holds = s.holds ∧ t.lines = s.lines ∧ t.panel = s.panel)
            ∧ Within (.service :: stepped) s t)
      ∧ (s.tb.state = .holdover ∨ s.tb.state = .freerun →
          t.rack = s.rack ∧ t.tb.trim = s.tb.trim ∧ t.tb.integ = s.tb.integ ∧ t.tb.permitUsed = s.tb.permitUsed
            ∧ t.tb.bad = 0 ∧ t.tb.missing = 0
            ∧ (s.tb.good = 0 → t.tb.state = s.tb.state ∧ t.tb.good = 1)
            ∧ (1 ≤ s.tb.good → t.tb.state = .acquiring ∧ t.tb.good = 0 ∧ t.tb.holdoverSince = none ∧ ToldAll .time t)
            ∧ Within (.service :: .counters :: sourced) s t)

/-! ### Triggers and captures (chapter 7) -/

/-- The cell of the send event of entry `e` for link `n` (R114, R122). -/
def sentCell (i : TrigIx) (e : TrigEntry) (s : State) (n : Link) : TrigCell :=
  { compare := e.compare
    code := e.code
    index := i
    late := decide (e.compare.toNat < s.rack.toNat) || lateFor s n e.compare }

/-- What every send event of entry `i` in state `u` leaves in `t`: an idle transmitter of each eligible target sends
its cell, each other target is counted as missed, and the pulse waits for its compare time with PANEL and the eligible
links, or is over (R122, R123). -/
def sentFrom (i : TrigIx) (u t : State) : Prop :=
  (t.trig i).fires = satAdd (u.trig i).fires 1
    ∧ (∀ n : Link, (u.trig i).targets.getLsbD n = true → targetEligible u n = true →
        (u.port n).tx = none → (u.port n).waitSync = [] → (u.port n).trigHead = none → (u.port n).waitTrig = [] →
        (t.port n).tx = some (.cell (.trig (sentCell i (u.trig i) u n))))
    ∧ (∀ n : Link, (u.trig i).targets.getLsbD n = true → targetEligible u n = false →
        t.counter n .trigMissed = satAdd (u.counter n .trigMissed) 1)
    ∧ ((u.trig i).compare.toNat ≤ u.rack.toNat → (t.trig i).pulse = none)
    ∧ (u.rack.toNat < (u.trig i).compare.toNat → ∃ links : LinkSet,
        (∀ n : Link, links.getLsbD n = ((u.trig i).targets.getLsbD n && targetEligible u n))
          ∧ (t.trig i).pulse = some
              { compare := (u.trig i).compare, panel := (u.trig i).targets.getLsbD 6, links := links
                left := 0 })

/-- O47. The send event of an ARMED entry, at its send time: an idle transmitter of each eligible target sends the
TRIGGER cell, each other target is counted as missed, and the pulse waits for its compare time with PANEL and the
eligible links, or is over. The last instance passes the entry to DONE with FIRED, or LATE when the compare time is
past; an ON_CAPTURE entry waits again; a periodic one arms its next instance (R114, R121 to R124). Instances already
due are skipped and counted: the entry is ARMED for the first that is not due, or DONE with SKIPPED (R125). The panel
event pulses TRIGOUT, and the TRIG lines of the frames that are ACTIVE and have not left ACTIVE since the send event,
for 1 us and removes the pulse (R65, R67, R123). -/
def Obligations.TriggerEventsFireAndSkip : Prop :=
  (∀ (i : TrigIx) (s u : State), (s.trig i).state = .armed →
      u = advanceToRack ((s.trig i).compare.toNat - s.lead) s → (s.trig i).compare.toNat ≤ u.rack.toNat + s.lead →
      ∃ t, exec (.sendEvent i) s = .next t ∧ sentFrom i u t ∧ t.osc = u.osc ∧ t.rack = u.rack
        ∧ ((s.trig i).repeats = 1 ∨ ((s.trig i).mode = .atTime ∧ (s.trig i).period = 0) →
            (t.trig i).state = .done ∧ (t.trig i).repeats = 0
              ∧ (t.trig i).outcome = (if (s.trig i).compare.toNat < u.rack.toNat then .late else .fired)
              ∧ ∀ rq, (s.trig i).owner = some rq → (t.client rq).news &&& Notice.trigger.bit = Notice.trigger.bit)
        ∧ ((s.trig i).repeats ≠ 1 → (s.trig i).mode = .onCapture →
            (t.trig i).state = .waiting ∧ (t.trig i).repeats = (s.trig i).repeats - 1)
        ∧ ((s.trig i).repeats ≠ 1 → (s.trig i).mode = .atTime → 0 < (s.trig i).period →
            u.rack.toNat + s.lead < (s.trig i).compare.toNat + (s.trig i).period →
            (s.trig i).compare.toNat + (s.trig i).period < 2 ^ 64 →
            (t.trig i).state = .armed ∧ (t.trig i).repeats = (s.trig i).repeats - 1
              ∧ (t.trig i).compare.toNat = (s.trig i).compare.toNat + (s.trig i).period)
        ∧ (∀ j, j ≠ i → t.trig j = s.trig j) ∧ Within (clocks ++ fired) s t)
    ∧ (∀ (i : TrigIx) (k : Nat) (s u : State), (s.trig i).state = .armed → (s.trig i).mode = .atTime →
      0 < (s.trig i).period → (s.trig i).repeats ≠ 1 →
      u = advanceToRack ((s.trig i).compare.toNat - s.lead) s → (s.trig i).compare.toNat ≤ u.rack.toNat + s.lead →
      0 < k → (s.trig i).compare.toNat + k * (s.trig i).period ≤ u.rack.toNat + s.lead →
      u.rack.toNat + s.lead < (s.trig i).compare.toNat + (k + 1) * (s.trig i).period →
      (s.trig i).compare.toNat + (k + 1) * (s.trig i).period < 2 ^ 64 →
      ∃ t, exec (.sendEvent i) s = .next t ∧ (t.trig i).fires = satAdd (s.trig i).fires 1
        ∧ ((s.trig i).repeats = 0 ∨ k + 1 < (s.trig i).repeats →
            (t.trig i).state = .armed ∧ (t.trig i).skips = satAdd (s.trig i).skips k
              ∧ (t.trig i).compare.toNat = (s.trig i).compare.toNat + (k + 1) * (s.trig i).period
              ∧ (t.trig i).repeats = (s.trig i).repeats - 1 - k)
        ∧ (1 < (s.trig i).repeats → (s.trig i).repeats ≤ k + 1 →
            (t.trig i).state = .done ∧ (t.trig i).outcome = .skipped
              ∧ (t.trig i).skips = satAdd (s.trig i).skips ((s.trig i).repeats - 1)
              ∧ (t.trig i).compare.toNat
                  = (s.trig i).compare.toNat + ((s.trig i).repeats - 1) * (s.trig i).period)
        ∧ ∀ rq, (s.trig i).owner = some rq → (t.client rq).news &&& Notice.trigger.bit = Notice.trigger.bit)
    ∧ ∀ (i : TrigIx) (p : PendingPulse) (s u : State), (s.trig i).pulse = some p →
      u = advanceToRack p.compare.toNat s → p.compare.toNat ≤ u.rack.toNat →
      ∃ t, exec (.panelEvent i) s = .next t ∧ t.trig i = { s.trig i with pulse := none }
        ∧ (∀ j, j ≠ i → t.trig j = s.trig j)
        ∧ t.panel.trigoutPulse
            = (if p.panel = true ∧ s.panel.trigout.mode = .function then some (u.osc + 1000) else s.panel.trigoutPulse)
        ∧ (∀ n : Link, (t.line n).pulse
            = (if p.links.getLsbD n = true ∧ (s.entry n).state = .active ∧ p.left.getLsbD n = false
                  ∧ (s.line n).trig.mode = .function ∧ (s.line n).trigDir = .output then some (u.osc + 1000)
                else (s.line n).pulse))
        ∧ t.osc = u.osc ∧ t.rack = u.rack ∧ Within (clocks ++ [.trigs, .lines, .panel]) s t

/-- No ON_CAPTURE entry waits on, or is armed for, a source. -/
def nobodyWaits (s : State) (src : CaptureSource) : Prop :=
  ∀ i, (s.trig i).mode = .onCapture → (s.trig i).source = some src →
    (s.trig i).state = .free ∨ (s.trig i).state = .done

/-- A capture taken now, in the order of Table 7.10 (1). -/
def captureNow (s : State) (origin : CaptureOrigin) (src : CaptureSource) (time : Time) (uncompensated : Bool)
    (intended : Option Time) (code : Option (BitVec 4)) : Capture :=
  { number := s.captureCount + 1
    origin := origin
    source := src
    time := time
    uncompensated := uncompensated
    unlocked := decide (s.tb.state ≠ .locked)
    intended := intended
    code := code }

/-- What a capture leaves in a queue that already holds a record: it is stored as the newest, or with 32 held counted
in CAPTURE_OVERFLOW; either way it takes the next number (R131, R132). -/
def captureLeaves (c : Capture) (u : State) : State :=
  if u.captures.length < 32 then { u with captureCount := c.number, captures := u.captures ++ [c] }
  else { u with captureCount := c.number, captureOverflow := satAdd u.captureOverflow 1 }

/-- Command `c` makes capture `k` in state `s`, and `u` is the state before it is stored: a captured rising edge of
TRIG or TRIGIN at the rack time, and a TRIGGER cell of the right length at its arrival less D, or UNCOMPENSATED at its
arrival where D is absent (R66, R113, R131). -/
def captureMade (c : Instr) (s u : State) (k : Capture) : Prop :=
  (∃ n, c = .trigEdge n .rising ∧ (s.line n).trig.mode = .function ∧ (s.line n).trigDir = .input
      ∧ (s.entry n).state ≠ .quiesced ∧ u = s.modLine n (fun l => { l with trigPin := true })
      ∧ k = captureNow s (.trigLine n) (.link n) s.rack false none none)
    ∨ (c = .triginEdge .rising ∧ s.panel.trigin.mode = .function
      ∧ u = { s with panel := { s.panel with triginPin := true } }
      ∧ k = captureNow s .trigin .panel s.rack false none none)
    ∨ ∃ n cell, c = .triggerCellReceived n cell ∧ (s.port n).state = .up ∧ cell.body.length = 4
      ∧ u = ((s.count n .cellsIn).modPort n fun p => { p with errRun := 0 })
      ∧ (((s.sync n).delay = none
          ∧ k = captureNow s (.triggerCell n) (.link n) s.rack true (some cell.stamp)
              (some ((cell.body.getD 0 0).extractLsb' 0 4)))
        ∨ ∃ d, (s.sync n).delay = some d ∧ d ≤ s.rack.toNat
          ∧ k = captureNow s (.triggerCell n) (.link n) (BitVec.ofNat 64 (s.rack.toNat - d)) false (some cell.stamp)
              (some ((cell.body.getD 0 0).extractLsb' 0 4)))

/-- Entry `i` is an ON_CAPTURE entry for captures of a source (R133). -/
def onSource (s : State) (i : TrigIx) (src : CaptureSource) : Prop :=
  (s.trig i).mode = .onCapture ∧ (s.trig i).source = some src

/-- O48. A captured rising edge on TRIG or TRIGIN, and a TRIGGER cell of the right length, make one capture each: the
edge at the rack time, the cell at its arrival less D, or UNCOMPENSATED at its arrival where D is absent, with its
intended time and code; a cell of wrong length makes none (R66, R113, R131, R132, R183). Where no entry waits on its
source, nothing else changes but the queue, and the first capture in an empty queue sets CAPTURE pending for all. A
capture arms an entry that waits on its source with its own delay, and counts a missed capture on an ARMED one; where
the send time that results is already due, the entry sends at once and waits again or ends (R121, R132, R133). -/
def Obligations.CapturesAreMade : Prop :=
  (∀ (c : Instr) (k : Capture) (s u : State), captureMade c s u k → s.captures ≠ [] → nobodyWaits s k.source →
      exec c s = .next (captureLeaves k u))
    ∧ (∀ (n : Link) (cell : RxCell) (s : State), (s.port n).state = .up → cell.body.length ≠ 4 →
      exec (.triggerCellReceived n cell) s = .next ((s.count n .cellsIn).modPort n fun p => { p with errRun := 0 }))
    ∧ (∀ (c : Instr) (k : Capture) (s u : State), captureMade c s u k → s.captures = [] → nobodyWaits s k.source →
      ∃ t, exec c s = .next t ∧ t.captures = [k] ∧ t.captureCount = k.number ∧ ToldAll .capture t
        ∧ t.captureOverflow = s.captureOverflow
        ∧ Within [.ports, .clients, .outstanding, .captures, .captureCount] u t)
    ∧ (∀ (c : Instr) (k : Capture) (i : TrigIx) (d : Nat) (s u : State), captureMade c s u k → onSource s i k.source →
      (s.trig i).state = .waiting → (s.trig i).delay = some d → s.rack.toNat + s.lead < k.time.toNat + d →
      k.time.toNat + d < 2 ^ 64 →
      ∃ t, exec c s = .next t
        ∧ t.trig i = { s.trig i with state := .armed, compare := BitVec.ofNat 64 (k.time.toNat + d) })
    ∧ (∀ (c : Instr) (k : Capture) (i : TrigIx) (s u : State), captureMade c s u k → onSource s i k.source →
      (s.trig i).state = .armed →
      ∃ t, exec c s = .next t
        ∧ t.trig i = { s.trig i with missedCaptures := satAdd (s.trig i).missedCaptures 1 })
    ∧ ∀ (c : Instr) (k : Capture) (i : TrigIx) (d : Nat) (s u armed : State), captureMade c s u k →
      onSource s i k.source → (s.trig i).state = .waiting → (s.trig i).delay = some d →
      k.time.toNat + d ≤ s.rack.toNat + s.lead → k.time.toNat + d < 2 ^ 64 → s.captures ≠ [] →
      (∀ j, j ≠ i → onSource s j k.source → (s.trig j).state = .free ∨ (s.trig j).state = .done) →
      armed = (captureLeaves k u).modTrig i
        (fun e => { e with state := .armed, compare := BitVec.ofNat 64 (k.time.toNat + d) }) →
      ∃ t, exec c s = .next t ∧ sentFrom i armed t
        ∧ ((s.trig i).repeats = 1 →
            (t.trig i).state = .done
              ∧ (t.trig i).outcome = (if k.time.toNat + d < s.rack.toNat then .late else .fired)
              ∧ ∀ rq, (s.trig i).owner = some rq → (t.client rq).news &&& Notice.trigger.bit = Notice.trigger.bit)
        ∧ ((s.trig i).repeats ≠ 1 → (t.trig i).state = .waiting ∧ (t.trig i).repeats = (s.trig i).repeats - 1)
        ∧ (∀ j, j ≠ i → t.trig j = s.trig j) ∧ t.captures = (captureLeaves k u).captures ∧ Within fired armed t

/-- The entry that TRIG_ARM with arguments `a` from `rq` makes of entry `e` (R117, R119). -/
def armedFrom (rq : Requester) (a : ArmArgs) (e : TrigEntry) : TrigEntry :=
  { state := match a.mode with
      | .atTime => .armed
      | .onCapture => .waiting
    owner := some rq
    mode := a.mode
    compare := a.compare
    period := a.period
    repeats := a.repeats
    source := a.source
    delay := a.delay
    targets := a.targets
    code := a.code
    outcome := .none
    fires := 0
    skips := 0
    missedTargets := 0
    missedCaptures := 0
    pulse := e.pulse }

/-- A TRIG_ARM that passes its checks, with fields `a`, arms entry `i`: the entry it names, or with ANY the lowest that
qualifies (Table 7.3 (1), R120). -/
def armsEntry (c : Instr) (q : Request) (i : TrigIx) (a : ArmArgs) (s : State) : Prop :=
  Taken q kindTrigArm false s ∧ armArgs s.lead (q.args.drop 1) = some a
    ∧ ((c = .trigArm q ∧ indexArg 16 q.args = some i ∧ mayModifyTrig s q.requester i = true
          ∧ ((s.trig i).owner = none ∨ (s.trig i).owner = some q.requester)
          ∧ ((s.trig i).state = .free ∨ (s.trig i).state = .done))
      ∨ (c = .trigArmAny q ∧ qualifies s q.requester i = true ∧ ∀ j, j < i → qualifies s q.requester j = false))

/-- The bytes of a trigger entry to be armed (Table 11.4 (1)). -/
def armRecord (mode : Byte) (compare : Time) (source : Byte) (delay period : BitVec 64) (repeats : BitVec 16)
    (targets code : Byte) : List Byte :=
  [mode] ++ be64 compare ++ [source] ++ be64 delay ++ be64 period ++ be16 repeats ++ [targets, code]

/-- O49. TRIG_ARM that passes its checks writes the entry with the requester as owner, the fields given, outcome NONE
and its counts 0, and keeps its pending pulse: WAITING for ON_CAPTURE, ARMED for AT_TIME with a send time still ahead;
with one already due the entry sends at once and goes on from there. ANY takes the lowest index that qualifies, and
with none the answer is FULL. The checks are refused in the order of Table 7.3 (1): BADARG, NOACCESS, BADARG, STATE;
the last clause says which fields pass the third (R119 to R122, R124). Two points are the model's choice: the response
of Fn goes after the NOTICE of TRIGGER of the same step (log 12), and a missing index byte is BADARG before the access
check and missing later bytes after it (DEDUCED, log 20). -/
def Obligations.TrigArmWritesTheEntry : Prop :=
  (∀ (q : Request) (i : TrigIx) (a : ArmArgs) (s : State), Taken q kindTrigArm false s →
      indexArg 16 q.args = some i → mayModifyTrig s q.requester i = true →
      (s.trig i).owner = none ∨ (s.trig i).owner = some q.requester →
      armArgs s.lead (q.args.drop 1) = some a → (s.trig i).state = .free ∨ (s.trig i).state = .done →
      a.mode = .onCapture ∨ s.rack.toNat + s.lead < a.compare.toNat →
      exec (.trigArm q) s
        = .next (answered q kindTrigArm .ok [BitVec.ofNat 8 i.val]
            ((arrived q s).modTrig i fun e => armedFrom q.requester a e)))
    ∧ (∀ (q : Request) (i : TrigIx) (a : ArmArgs) (s : State), Taken q kindTrigArm false s →
      armArgs s.lead (q.args.drop 1) = some a → qualifies s q.requester i = true →
      (∀ j, j < i → qualifies s q.requester j = false) →
      a.mode = .onCapture ∨ s.rack.toNat + s.lead < a.compare.toNat →
      exec (.trigArmAny q) s
        = .next (answered q kindTrigArm .ok [BitVec.ofNat 8 i.val]
            ((arrived q s).modTrig i fun e => armedFrom q.requester a e)))
    ∧ (∀ (q : Request) (a : ArmArgs) (s : State), Taken q kindTrigArm false s →
      armArgs s.lead (q.args.drop 1) = some a → (∀ j, qualifies s q.requester j = false) →
      exec (.trigArmAny q) s = .next (answered q kindTrigArm .full [] (arrived q s)))
    ∧ (∀ (c : Instr) (q : Request) (i : TrigIx) (a : ArmArgs) (s u : State), armsEntry c q i a s →
      a.mode = .atTime → a.compare.toNat ≤ s.rack.toNat + s.lead →
      u = (arrived q s).modTrig i (fun e => armedFrom q.requester a e) →
      ∃ t, exec c s = .next t ∧ sentFrom i u t
        ∧ (a.repeats = 1 ∨ a.period = 0 → (t.trig i).state = .done ∧ (t.trig i).repeats = 0
            ∧ (t.trig i).outcome = (if a.compare.toNat < s.rack.toNat then .late else .fired)
            ∧ (t.client q.requester).news &&& Notice.trigger.bit = Notice.trigger.bit)
        ∧ (a.repeats ≠ 1 → 0 < a.period → s.rack.toNat + s.lead < a.compare.toNat + a.period →
            a.compare.toNat + a.period < 2 ^ 64 →
            (t.trig i).state = .armed ∧ (t.trig i).repeats = a.repeats - 1
              ∧ (t.trig i).compare.toNat = a.compare.toNat + a.period)
        ∧ (t.trig i).owner = some q.requester ∧ (∀ j, j ≠ i → t.trig j = s.trig j)
        ∧ Replied q kindTrigArm .ok [BitVec.ofNat 8 i.val] s t ∧ Within (fired ++ asked) s t)
    ∧ (∀ (q : Request) (s : State), Taken q kindTrigArm false s →
      (indexArg 16 q.args = none → exec (.trigArm q) s = .next (answered q kindTrigArm .badArg [] (arrived q s)))
        ∧ (∀ i, indexArg 16 q.args = some i →
            mayModifyTrig s q.requester i = false
              ∨ ((s.trig i).owner ≠ none ∧ (s.trig i).owner ≠ some q.requester) →
            exec (.trigArm q) s = .next (answered q kindTrigArm .noAccess [] (arrived q s)))
        ∧ (∀ i, indexArg 16 q.args = some i → mayModifyTrig s q.requester i = true →
            (s.trig i).owner = none ∨ (s.trig i).owner = some q.requester →
            (armArgs s.lead (q.args.drop 1) = none →
                exec (.trigArm q) s = .next (answered q kindTrigArm .badArg [] (arrived q s)))
              ∧ (∀ a, armArgs s.lead (q.args.drop 1) = some a →
                (s.trig i).state = .waiting ∨ (s.trig i).state = .armed →
                exec (.trigArm q) s = .next (answered q kindTrigArm .state [] (arrived q s))))
        ∧ (armArgs s.lead (q.args.drop 1) = none →
            exec (.trigArmAny q) s = .next (answered q kindTrigArm .badArg [] (arrived q s))))
    ∧ ∀ (lead : Nat) (mode : Byte) (compare : Time) (source : Byte) (delay period : BitVec 64) (repeats : BitVec 16)
        (targets code : Byte) (rest : List Byte),
      (armArgs lead (armRecord mode compare source delay period repeats targets code ++ rest)).isSome = true ↔
        code.toNat ≤ 15 ∧ 1 ≤ targets.toNat ∧ targets.toNat ≤ 127
          ∧ (period = 0 ∨ (lead + 1000 ≤ period.toNat ∧ period.toNat ≤ 2 ^ 40))
          ∧ (mode = 0
            ∨ (mode = 1 ∧ source.toNat ≤ 6 ∧ lead ≤ delay.toNat ∧ delay.toNat ≤ 2 ^ 32 ∧ period = 0))

/-- How entry `i`, due in state `u`, goes on in `t` after its send event (R124, R125): the last instance ends it, an
ON_CAPTURE entry with more waits again, and a periodic one is armed for the first instance that is not due, or ended
with SKIPPED where its last instance is among the `k` that are. -/
def goesOn (i : TrigIx) (u t : State) : Prop :=
  (t.trig i).fires = satAdd (u.trig i).fires 1
    ∧ ((u.trig i).repeats = 1 ∨ ((u.trig i).mode = .atTime ∧ (u.trig i).period = 0) →
        (t.trig i).state = .done ∧ (t.trig i).repeats = 0
          ∧ (t.trig i).outcome = (if (u.trig i).compare.toNat < u.rack.toNat then .late else .fired)
          ∧ ∀ rq, (u.trig i).owner = some rq → (t.client rq).news &&& Notice.trigger.bit = Notice.trigger.bit)
    ∧ ((u.trig i).repeats ≠ 1 → (u.trig i).mode = .onCapture →
        (t.trig i).state = .waiting ∧ (t.trig i).repeats = (u.trig i).repeats - 1)
    ∧ ((u.trig i).repeats ≠ 1 → (u.trig i).mode = .atTime → 0 < (u.trig i).period → ∀ k : Nat,
        (u.trig i).compare.toNat + k * (u.trig i).period ≤ u.rack.toNat + u.lead →
        u.rack.toNat + u.lead < (u.trig i).compare.toNat + (k + 1) * (u.trig i).period →
        (u.trig i).compare.toNat + (k + 1) * (u.trig i).period < 2 ^ 64 →
        ((u.trig i).repeats = 0 ∨ k + 1 < (u.trig i).repeats →
            (t.trig i).state = .armed ∧ (t.trig i).skips = satAdd (u.trig i).skips k
              ∧ (t.trig i).compare.toNat = (u.trig i).compare.toNat + (k + 1) * (u.trig i).period
              ∧ (t.trig i).repeats = (u.trig i).repeats - 1 - k)
          ∧ (1 < (u.trig i).repeats → (u.trig i).repeats ≤ k + 1 →
            (t.trig i).state = .done ∧ (t.trig i).outcome = .skipped
              ∧ (t.trig i).skips = satAdd (u.trig i).skips ((u.trig i).repeats - 1)
              ∧ (t.trig i).compare.toNat = (u.trig i).compare.toNat + ((u.trig i).repeats - 1) * (u.trig i).period)
          ∧ (0 < k →
            ∀ rq, (u.trig i).owner = some rq → (t.client rq).news &&& Notice.trigger.bit = Notice.trigger.bit))

/-- O50. TRIG_CANCEL ends a WAITING or ARMED entry with CANCELLED_REQUEST and tells its owner; TRIG_RELEASE frees a
DONE entry and keeps its pending pulse; in other states both answer STATE. TRIG_CONFIG stores LEAD, clamped (R118,
R129, R130). Each ARMED entry that the new LEAD makes due has its send event at once and goes on by its repeat, with
the skip rule; where it is the only one, each idle eligible target sends its cell; an entry that is not due stays as it
was (R121, R122, R124, R125). That the response of Fn goes after the NOTICE of TRIGGER of the same step is the model's
choice (log 12). -/
def Obligations.TrigRequestsActOnEntries : Prop :=
  (∀ (q : Request) (i : TrigIx) (s : State), Taken q kindTrigCancel false s → indexArg 16 q.args = some i →
      mayModifyTrig s q.requester i = true → (s.trig i).state = .waiting ∨ (s.trig i).state = .armed →
      ∃ t, exec (.trigCancel q) s = .next t
        ∧ t.trig i = { s.trig i with state := .done, outcome := .cancelledRequest }
        ∧ (∀ j, j ≠ i → t.trig j = s.trig j)
        ∧ (∀ rq, (s.trig i).owner = some rq → (t.client rq).news &&& Notice.trigger.bit = Notice.trigger.bit)
        ∧ Replied q kindTrigCancel .ok [] s t ∧ Within (.trigs :: .outstanding :: asked) s t)
    ∧ (∀ (q : Request) (i : TrigIx) (s : State), Taken q kindTrigCancel false s → indexArg 16 q.args = some i →
      mayModifyTrig s q.requester i = true → (s.trig i).state = .free ∨ (s.trig i).state = .done →
      exec (.trigCancel q) s = .next (answered q kindTrigCancel .state [] (arrived q s)))
    ∧ (∀ (q : Request) (i : TrigIx) (s : State), Taken q kindTrigRelease false s → indexArg 16 q.args = some i →
      mayModifyTrig s q.requester i = true → (s.trig i).state = .done →
      exec (.trigRelease q) s
        = .next (answered q kindTrigRelease .ok []
            ((arrived q s).modTrig i fun e => { TrigEntry.free with pulse := e.pulse })))
    ∧ (∀ (q : Request) (i : TrigIx) (s : State), Taken q kindTrigRelease false s → indexArg 16 q.args = some i →
      mayModifyTrig s q.requester i = true → (s.trig i).state ≠ .done →
      exec (.trigRelease q) s = .next (answered q kindTrigRelease .state [] (arrived q s)))
    ∧ (∀ (q : Request) (x : Nat) (rest : List Byte) (s : State), Taken q kindTrigConfig false s →
      read32 q.args = some (x, rest) →
      (∀ i, (s.trig i).state = .armed → s.rack.toNat + min x 100000 < (s.trig i).compare.toNat) →
      exec (.trigConfig q) s
        = .next (answered q kindTrigConfig (if 100000 < x then .clamped else .ok) []
            { arrived q s with lead := min x 100000 }))
    ∧ ∀ (q : Request) (x : Nat) (rest : List Byte) (s u : State), Taken q kindTrigConfig false s →
      read32 q.args = some (x, rest) → u = { arrived q s with lead := min x 100000 } →
      ∃ t, exec (.trigConfig q) s = .next t ∧ t.lead = min x 100000
        ∧ (∀ i, dueAt u u.rack.toNat i → goesOn i u t)
        ∧ (∀ i, dueAt u u.rack.toNat i → (∀ j, j ≠ i → ¬ dueAt u u.rack.toNat j) → sentFrom i u t)
        ∧ (∀ i, ¬ dueAt u u.rack.toNat i → t.trig i = s.trig i)
        ∧ Replied q kindTrigConfig (if 100000 < x then .clamped else .ok) [] s t
        ∧ Within (.lead :: fired ++ asked) s t

/-- O51. CAPTURE_PEEK answers the oldest record and the number held and changes nothing; CAPTURE_POP answers it with
the number left and removes it; an empty queue is NOTFOUND, with a count of 0 for PEEK. Without read permission for
PEEK, or modify permission for POP, on CAPTURE 0 the answer is NOACCESS. A DRAINING frame may use PEEK but not POP.
Neither clears a notice (R134). How the fields of the record are written as bytes is log 15's. -/
def Obligations.CaptureQueueIsFirstInFirstOut : Prop :=
  (∀ (q : Request) (c : Capture) (rest : List Capture) (s : State), Taken q kindCapturePeek false s →
      mayRead s q.requester .capture 0 = true → s.captures = c :: rest →
      exec (.capturePeek q) s
        = .next (answered q kindCapturePeek .ok (captureRecord c ++ [BitVec.ofNat 8 (rest.length + 1)]) (arrived q s)))
    ∧ (∀ (q : Request) (s : State), Taken q kindCapturePeek false s →
      mayRead s q.requester .capture 0 = true → s.captures = [] →
      exec (.capturePeek q) s = .next (answered q kindCapturePeek .notFound [0] (arrived q s)))
    ∧ (∀ (q : Request) (c : Capture) (rest : List Capture) (s : State), Taken q kindCapturePop false s →
      mayModify s q.requester .capture 0 = true → s.captures = c :: rest →
      exec (.capturePop q) s
        = .next (answered q kindCapturePop .ok (captureRecord c ++ [BitVec.ofNat 8 rest.length])
            { arrived q s with captures := rest }))
    ∧ (∀ (q : Request) (s : State), Taken q kindCapturePop false s →
      mayModify s q.requester .capture 0 = true → s.captures = [] →
      exec (.capturePop q) s = .next (answered q kindCapturePop .notFound [] (arrived q s)))
    ∧ (∀ (q : Request) (s : State), Taken q kindCapturePeek false s → mayRead s q.requester .capture 0 = false →
      exec (.capturePeek q) s = .next (answered q kindCapturePeek .noAccess [] (arrived q s)))
    ∧ (∀ (q : Request) (s : State), Taken q kindCapturePop false s → mayModify s q.requester .capture 0 = false →
      exec (.capturePop q) s = .next (answered q kindCapturePop .noAccess [] (arrived q s)))
    ∧ ∀ (q : Request) (n : Link) (s : State), q.requester = .frame n → (s.entry n).state = .draining → Heard q s →
      s.busy q.requester = false →
      Taken q kindCapturePeek false s
        ∧ exec (.capturePop q) s = .next (answered q kindCapturePop .state [] (arrived q s))

/-! ### Streams (chapters 8 and 9) -/

/-- A SAMPLE cell as the port hands it on: counted in CELLS_IN and BLOCKS_IN, with the errored-cell run ended (R7,
R153). -/
def blockArrived (n : Link) (s : State) : State :=
  ((s.count n .cellsIn).modPort n fun p => { p with errRun := 0 }).count n .blocksIn

/-- A block that arrives on link `n` is inside the gate of its route and timed, or the route has no gate (R112, R146).
-/
def gatePasses (n : Link) (cell : RxCell) (r : Route) (s : State) : Prop :=
  ∀ g ∈ r.gate, ((s.sync n).follower = .timed ∨ (s.tb.source = .link n ∧ s.tb.state = .locked))
    ∧ g.start ≤ cell.stamp ∧ cell.stamp < g.stop

/-- The sample count of a SAMPLE cell, bytes 2 and 3 of its body (Table 11.2 (1)). -/
def sampleCount (cell : RxCell) : Nat := beNat ((cell.body.drop 2).take 2)

/-- The content of a SAMPLE cell is malformed (R183): a width code other than 00H and 01H, a sample count of 0 or above
512 (16-bit) or 256 (32-bit), or a length that is not 4 and the payload. -/
def malformedSample (cell : RxCell) : Prop :=
  1 < (cell.body.getD 0 0).toNat ∨ sampleCount cell = 0
    ∨ (cell.body.getD 0 0 = 0 ∧ (512 < sampleCount cell ∨ cell.body.length ≠ 4 + 2 * sampleCount cell))
    ∨ (cell.body.getD 0 0 = 1 ∧ (256 < sampleCount cell ∨ cell.body.length ≠ 4 + 4 * sampleCount cell))

/-- O52. A block that fails a test before the route is used (switch not ready, entry not ACTIVE, no route, another
source link) is counted there and nothing else changes; no route stands for stream id 0 or for a malformed block (R145,
R183). A block is malformed by its width code, its sample count or its length, and one that is not carries the fields
of its header and body (R183). Under the route of its stream an empty egress set drops it and sets the used flag, a
gate drops an untimed block as DROP_UNTIMED and one stamped outside it as DROP_GATE and leaves the flag, and with no
free slot one that the gate lets pass, or that meets none, is counted in DROP_POOL and sets the flag (R112, R145, R146,
R153). -/
def Obligations.BlocksAreFilteredInOrder : Prop :=
  (∀ (n : Link) (cell : RxCell) (s : State), (s.port n).state = .up → s.ready = false →
      exec (.sampleCellReceived n cell) s
        = .next { blockArrived n s with initDrop := satAdd s.initDrop 1 })
    ∧ (∀ (n : Link) (cell : RxCell) (s : State), (s.port n).state = .up → s.ready = true →
      (s.entry n).state ≠ .active →
      exec (.sampleCellReceived n cell) s
        = .next ((blockArrived n s).count n (if (s.entry n).state = .draining then .dropDrain else .dropNotactive)))
    ∧ (∀ (n : Link) (cell : RxCell) (s : State), (s.port n).state = .up → s.ready = true →
      (s.entry n).state = .active →
      (∀ b, blockOf cell = some b → b.stream = 0 ∨ ∀ i, ∀ r ∈ s.route i, r.stream ≠ b.stream) →
      exec (.sampleCellReceived n cell) s = .next ((blockArrived n s).count n .dropNoroute))
    ∧ (∀ (n : Link) (cell : RxCell) (b : Slot) (i : RouteIx) (r : Route) (s : State), (s.port n).state = .up →
      s.ready = true → (s.entry n).state = .active → blockOf cell = some b → RouteLaw s →
      s.route i = some r → r.stream = b.stream → r.source ≠ n →
      exec (.sampleCellReceived n cell) s = .next ((blockArrived n s).count n .dropSource))
    ∧ (∀ cell : RxCell, (blockOf cell = none ↔ malformedSample cell)
      ∧ ∀ b, blockOf cell = some b → b =
          { stream := cell.stream.setWidth 12
            sequence := cell.sequence
            stamp := cell.stamp
            timed := false
            width := decide (cell.body.getD 0 0 = 1)
            count := sampleCount cell
            payload := cell.body.drop 4
            refs := 0 })
    ∧ ∀ (n : Link) (cell : RxCell) (b : Slot) (i : RouteIx) (r : Route) (s : State), (s.port n).state = .up →
      s.ready = true → (s.entry n).state = .active → blockOf cell = some b → RouteLaw s →
      s.route i = some r → r.stream = b.stream → r.source = n →
      (r.egress = 0 →
          exec (.sampleCellReceived n cell) s
            = .next (((blockArrived n s).setRoute i (some { r with used := true })).count n .dropFilter))
        ∧ (∀ g, r.egress ≠ 0 → r.gate = some g →
            ¬ ((s.sync n).follower = .timed ∨ (s.tb.source = .link n ∧ s.tb.state = .locked)) →
            exec (.sampleCellReceived n cell) s = .next ((blockArrived n s).count n .dropUntimed))
        ∧ (∀ g, r.egress ≠ 0 → r.gate = some g →
            (s.sync n).follower = .timed ∨ (s.tb.source = .link n ∧ s.tb.state = .locked) →
            cell.stamp < g.start ∨ g.stop ≤ cell.stamp →
            exec (.sampleCellReceived n cell) s = .next ((blockArrived n s).count n .dropGate))
        ∧ (r.egress ≠ 0 → gatePasses n cell r s → (∀ j, s.slot j ≠ none) →
            exec (.sampleCellReceived n cell) s
              = .next (((blockArrived n s).setRoute i (some { r with used := true })).count n .dropPool))

/-- The link is UP with its transmitter free. -/
abbrev idleAt (e : Link) (s : State) : Prop := (s.port e).state = .up ∧ (s.port e).tx = none

/-- The queues of link `e` when it has taken the block of slot `j`: the block is appended, or is in transmission at once
where the link stood idle with nothing queued (R154, R156). -/
def queuesTaking (c : RouteClass) (j : SlotIx) (e : Link) (s : State) : Egress :=
  if idleAt e s then
    { expedite := []
      normal := []
      run := match c with
        | .expedite => min ((s.queues e).run + 1) 8
        | .normal => 0 }
  else appendRef c j (s.queues e)

/-- Nothing waits for link `e`, neither a cell nor a block. -/
abbrev nothingWaits (e : Link) (s : State) : Prop :=
  takeWaiting (s.port e) = none ∧ (s.queues e).expedite = [] ∧ (s.queues e).normal = []

/-- O53. A routed block that passes, inside the gate where its route has one, goes to the lowest free slot, with one
reference for each egress link that is in service with an ACTIVE frame and room: as the newest of the queue of the
route's class, or, where the link is UP with an idle transmitter and nothing waiting, in transmission at once, the
EXPEDITE run counted. Links that are not so are skipped and counted, in DROP_QUEUE, DROP_DRAIN or DROP_NOTACTIVE, and a
block that no link takes leaves its slot free (R146, R152 to R157). An EXPEDITE block, and one appended below the high
watermark everywhere, raises no hold (R161); here no hold stands against an idle egress link of a NORMAL block. With one
such link that has holds, taking the block removes them, each with a RESUME if its source link is UP (R162). -/
def Obligations.RoutedBlocksFanOut : Prop :=
  (∀ (n : Link) (cell : RxCell) (b : Slot) (i : RouteIx) (r : Route) (j : SlotIx) (taken : List Link) (s : State),
    (s.port n).state = .up → s.ready = true → (s.entry n).state = .active → blockOf cell = some b → RouteLaw s →
    s.route i = some r → r.stream = b.stream → r.source = n → r.egress ≠ 0 →
    gatePasses n cell r s → s.slot j = none → (∀ k, k < j → s.slot k ≠ none) →
    taken = allLinks.filter (fun (e : Link) => r.egress.getLsbD e && egressEligible s e
      && decide ((classQueue r.cls (s.queues e)).length < 24)) →
    (∀ e ∈ taken, idleAt e s → nothingWaits e s) →
    (r.cls = .normal → ∀ h ∈ s.holds, h.egress ∈ taken → ¬ idleAt h.egress s) →
    ∃ t, exec (.sampleCellReceived n cell) s = .next t
      ∧ t.slot j = (if taken = [] then none
          else some { b with timed := timedCondition s n, refs := taken.length })
      ∧ (∀ k, k ≠ j → t.slot k = s.slot k)
      ∧ (∀ e : Link, t.queues e = if e ∈ taken then queuesTaking r.cls j e s else s.queues e)
      ∧ (∀ e ∈ taken, idleAt e s → (t.port e).tx = some (.block j))
      ∧ (∀ e : Link, r.egress.getLsbD e = true → egressEligible s e = true → 24 ≤ (classQueue r.cls (s.queues e)).length →
          t.counter e .dropQueue = satAdd (s.counter e .dropQueue) 1)
      ∧ (∀ e : Link, r.egress.getLsbD e = true → egressEligible s e = false → (s.entry e).state ≠ .draining →
          t.counter e .dropNotactive = satAdd (s.counter e .dropNotactive) 1)
      ∧ (∀ e : Link, r.egress.getLsbD e = true → (s.entry e).state = .draining →
          t.counter e .dropDrain = satAdd (s.counter e .dropDrain) 1)
      ∧ (r.cls = .expedite ∨ (∀ e ∈ taken, (s.queues e).normal.length + 1 < s.highMark) →
          t.holds = s.holds ∧ ∀ m : Link, t.counter m .holdsSent = s.counter m .holdsSent
            ∧ t.counter m .holdsRefused = s.counter m .holdsRefused
            ∧ (t.port m).waitHold = (s.port m).waitHold
            ∧ (¬ (m ∈ taken ∧ idleAt m s) → (t.port m).tx = (s.port m).tx))
      ∧ t.route i = some { r with used := true } ∧ t.counter n .blocksIn = satAdd (s.counter n .blocksIn) 1
      ∧ Within (.routes :: .service :: streamed) s t)
    ∧ ∀ (n e : Link) (cell : RxCell) (b : Slot) (i : RouteIx) (r : Route) (j : SlotIx) (s : State),
      (s.port n).state = .up → s.ready = true → (s.entry n).state = .active → blockOf cell = some b → RouteLaw s →
      s.route i = some r → r.stream = b.stream → r.source = n → r.egress = linkBit e → r.cls = .normal →
      gatePasses n cell r s → s.slot j = none → (∀ k, k < j → s.slot k ≠ none) →
      (s.entry e).state = .active → idleAt e s → nothingWaits e s → 1 < s.highMark →
      ∃ t, exec (.sampleCellReceived n cell) s = .next t
        ∧ t.slot j = some { b with timed := timedCondition s n, refs := 1 }
        ∧ t.queues e = { expedite := [], normal := [], run := 0 } ∧ (t.port e).tx = some (.block j)
        ∧ holdsReleased (fun h => decide (h.egress = e)) s t
        ∧ (∀ m : Link, t.counter m .holdsSent = s.counter m .holdsSent
            ∧ t.counter m .holdsRefused = s.counter m .holdsRefused)
        ∧ Within (.routes :: .service :: streamed) s t

/-- A NORMAL block `b` that arrives on link `n` under its route is appended to the queue of its one egress link `e`,
which is then at or above the high watermark (R153, R154, R160). -/
def appendsHigh (n e : Link) (cell : RxCell) (b : Slot) (s : State) : Prop :=
  (s.port n).state = .up ∧ s.ready = true ∧ (s.entry n).state = .active ∧ blockOf cell = some b ∧ RouteLaw s
    ∧ (∃ i r, s.route i = some r ∧ r.stream = b.stream ∧ r.source = n ∧ r.egress = linkBit e ∧ gatePasses n cell r s
        ∧ r.cls = .normal)
    ∧ (∃ j, s.slot j = none) ∧ egressEligible s e = true
    ∧ s.highMark ≤ (s.queues e).normal.length + 1 ∧ (s.queues e).normal.length < 24

/-- O54. When a NORMAL block is appended at or above the high watermark on its one egress link, and the hold list has
room and no entry for it, the stream is held: an entry expires a hold time later, HOLDS_SENT is counted, and the source
is sent HOLD with the hold time, at once on an idle transmitter, and otherwise as the newest of the HOLD and RESUME
cells that wait there, what is in transmission going on (R12). With the list full no entry is added, and HOLDS_REFUSED
is counted on the source link; with an entry for the stream and the egress link already there, nothing is sent or
counted. The test adds nothing for a stream whose route is gone or has another source, or whose source link is not in
service: lookup and append are one command here, so that this is stated of the test itself (R160, R161, R164). -/
def Obligations.FullQueuesHoldTheSource : Prop :=
  (∀ (n e : Link) (cell : RxCell) (b : Slot) (s : State), appendsHigh n e cell b s → ((s.port e).state = .up → (s.port e).tx ≠ none) →
      s.holds.length < 16 → (∀ h ∈ s.holds, h.stream = b.stream → h.egress ≠ e) →
      s.rack.toNat + s.holdTime * 1000 < 2 ^ 64 →
      ∃ t, exec (.sampleCellReceived n cell) s = .next t
        ∧ t.holds = s.holds ++ [{ stream := b.stream
                                  source := n
                                  egress := e
                                  expiry := BitVec.ofNat 64 (s.rack.toNat + s.holdTime * 1000) }]
        ∧ t.counter n .holdsSent = satAdd (s.counter n .holdsSent) 1
        ∧ t.counter n .holdsRefused = s.counter n .holdsRefused
        ∧ holdOffered n (.hold b.stream (BitVec.ofNat 16 s.holdTime)) s t
        ∧ ((s.port n).tx ≠ none → (t.port n).tx = (s.port n).tx)
        ∧ Within (.routes :: .service :: streamed) s t)
    ∧ (∀ (n e : Link) (cell : RxCell) (b : Slot) (s : State), appendsHigh n e cell b s → ((s.port e).state = .up → (s.port e).tx ≠ none) →
      16 ≤ s.holds.length → (∀ h ∈ s.holds, h.stream = b.stream → h.egress ≠ e) →
      ∃ t, exec (.sampleCellReceived n cell) s = .next t ∧ t.holds = s.holds
        ∧ t.counter n .holdsRefused = satAdd (s.counter n .holdsRefused) 1
        ∧ t.counter n .holdsSent = s.counter n .holdsSent
        ∧ (t.port n).tx = (s.port n).tx ∧ (t.port n).waitHold = (s.port n).waitHold
        ∧ Within (.routes :: .service :: streamed) s t)
    ∧ (∀ (n e : Link) (cell : RxCell) (b : Slot) (h : HoldEntry) (s : State), appendsHigh n e cell b s →
      ((s.port e).state = .up → (s.port e).tx ≠ none) → h ∈ s.holds → h.stream = b.stream → h.egress = e →
      ∃ t, exec (.sampleCellReceived n cell) s = .next t ∧ t.holds = s.holds
        ∧ t.counter n .holdsRefused = s.counter n .holdsRefused ∧ t.counter n .holdsSent = s.counter n .holdsSent
        ∧ (t.port n).tx = (s.port n).tx ∧ (t.port n).waitHold = (s.port n).waitHold
        ∧ Within (.routes :: .service :: streamed) s t)
    ∧ ∀ (stream : StreamId) (n e : Link) (s : State),
      (∀ i, ∀ r ∈ s.route i, r.stream = stream → r.source ≠ n) ∨ inService (s.port n).state = false →
      holdTest stream n e s = s

/-- O55. A hold-list entry whose expiry the rack time reaches is renewed with a HOLD, sent or waiting on the source
link, while the NORMAL depth of its egress link is above the low watermark, and removed without a RESUME otherwise
(R163). The aging timer restarts at its expiry and adds a sweep unless one waits (R147). A sweep reads the valid
DYNAMIC entries at its start; at its completion each of them that has been used stays with its flag cleared, and each
that has not is gone, its holds with it, each with a RESUME if its source link is UP, and its owner told; other
entries are not touched (R140, R148). That the start of a sweep is a command of its own, and that its completion leaves
the unit idle and the writes that wait as they are, is the model's choice (log 30). -/
def Obligations.HoldsExpireAndRoutesAge : Prop :=
  (∀ (h : HoldEntry) (s u : State), h ∈ s.holds → (s.holds.map fun g => (g.stream, g.egress)).Nodup →
      u = advanceToRack h.expiry.toNat s → h.expiry.toNat ≤ u.rack.toNat →
      ∃ t, exec (.holdExpiry h.stream h.egress) s = .next t ∧ t.osc = u.osc ∧ t.rack = u.rack
        ∧ (s.lowMark < (s.queues h.egress).normal.length →
            u.rack.toNat + s.holdTime * 1000 < 2 ^ 64 →
            t.holds = s.holds.map (fun g => if g = h
                then { g with expiry := BitVec.ofNat 64 (u.rack.toNat + s.holdTime * 1000) } else g)
              ∧ t.counter h.source .holdsSent = satAdd (s.counter h.source .holdsSent) 1
              ∧ holdOffered h.source (.hold h.stream (BitVec.ofNat 16 s.holdTime)) s t
              ∧ ∀ m, m ≠ h.source → t.port m = s.port m)
        ∧ ((s.queues h.egress).normal.length ≤ s.lowMark →
            t.holds = s.holds.filter (fun g => decide (g ≠ h)) ∧ t.ports = s.ports)
        ∧ Within (clocks ++ [.ports, .counters, .holds]) s t)
    ∧ (∀ (ends : Nat) (s : State), s.agingEnds = some ends →
      ∃ t, exec .agingTimerExpiry s = .next t ∧ t.osc = max s.osc ends
        ∧ t.agingEnds = some (max s.osc ends + s.agingInterval * 1000000000)
        ∧ t.waiting = (if .sweep ∈ s.waiting then s.waiting else s.waiting ++ [.sweep])
        ∧ Within (.agingEnds :: .waiting :: clocks) s t)
    ∧ (∀ (rest : List WaitingWrite) (s : State), s.writing = none → s.waiting = .sweep :: rest →
      ∃ entries, exec .agingSweepStart s = .next { s with waiting := rest, writing := some (.sweep entries) }
        ∧ ∀ i : RouteIx, entries.getLsbD i.val = true ↔ ∃ r, s.route i = some r ∧ r.kind = .dynamic)
    ∧ ∀ (entries : BitVec 64) (s : State), RouteLaw s → s.writing = some (.sweep entries) →
      ∃ t, exec .agingSweepComplete s = .next t ∧ t.writing = none
        ∧ (∀ i : RouteIx, t.route i = if entries.getLsbD i.val then
            (s.route i).bind (fun r => if r.used then some { r with used := false } else none) else s.route i)
        ∧ holdsReleased (fun h => allRoutes.any fun i => entries.getLsbD i.val
            && (s.route i).any fun r => !r.used && decide (r.stream = h.stream)) s t
        ∧ (∀ (i : RouteIx) (r : Route) (rq : Requester), entries.getLsbD i.val = true → s.route i = some r → r.used = false →
            r.owner = some rq → (t.client rq).news &&& Notice.route.bit = Notice.route.bit)
        ∧ Within [.writing, .routes, .holds, .ports, .clients, .outstanding] s t

/-- A write's requester has its response, unless the write is orphaned (R137); a read transaction of the RCP in
progress holds it, and the request stays in progress meanwhile (R169, R170, log 23). -/
def WriteReplied (w : WriteRequest) (kind : Byte) (results : List Byte) (s t : State) : Prop :=
  w.orphaned = false → s.busy w.requester = true →
    Replied { requester := w.requester, tag := w.tag, args := [] } kind .ok results s t

/-- O56. ROUTE_SET and ROUTE_CLEAR that pass their arrival checks join the list last with the permissions of that
moment, and the request stays in progress; while the switch is not ready they are NOTREADY, while an orphaned write of
the requester waits or runs BUSY, and with bad arguments BADARG (R137, R138, R141, R150). The oldest write is decided
when it starts: a set replaces the valid entry of its stream, if it may, or takes the lowest invalid index it may
modify; a clear goes on with a valid entry it may modify; otherwise it is answered at once and the table is not changed
(R139, R141). At its completion the entry is replaced, created or invalid, holds that the table no longer supports are
removed, each with a RESUME if its source link is UP, another owner is told, and the request has its response (R139 to
R142); that it holds the index and then 0 for replaced or 1 for created is the encoding of log 15. That the start is a
command of its own, and that others may come before it, is the model's choice (log 30). While a read transaction of the
RCP holds that response, the request stays in progress (R169, R170, log 23). -/
def Obligations.RouteWritesRunTheirCourse : Prop :=
  (∀ (q : Request) (r : RouteSpec) (s : State), Taken q kindRouteSet false s → s.ready = true →
      orphanRuns s q.requester = false → routeArgs q.args = some r →
      ∃ modify : BitVec 64, (∀ i : RouteIx, modify.getLsbD i.val = mayModify s q.requester .route i.val)
        ∧ exec (.routeSet q) s = .next { opened q s with waiting := s.waiting ++ [.set
            { requester := q.requester, tag := q.tag, modify := modify, orphaned := false, departed := false } r] })
    ∧ (∀ (q : Request) (i : RouteIx) (s : State), Taken q kindRouteClear false s → s.ready = true →
      orphanRuns s q.requester = false → indexArg 64 q.args = some i →
      ∃ modify : BitVec 64, (∀ j : RouteIx, modify.getLsbD j.val = mayModify s q.requester .route j.val)
        ∧ exec (.routeClear q) s = .next { opened q s with waiting := s.waiting ++ [.clear
            { requester := q.requester, tag := q.tag, modify := modify, orphaned := false, departed := false } i] })
    ∧ (∀ (q : Request) (s : State), Taken q kindRouteSet false s →
      (orphanRuns s q.requester = true →
          exec (.routeSet q) s = .next (answered q kindRouteSet .busy [] (arrived q s)))
        ∧ (orphanRuns s q.requester = false → s.ready = false →
          exec (.routeSet q) s = .next (answered q kindRouteSet .notReady [] (arrived q s)))
        ∧ (orphanRuns s q.requester = false → s.ready = true → routeArgs q.args = none →
          exec (.routeSet q) s = .next (answered q kindRouteSet .badArg [] (arrived q s))))
    ∧ (∀ (q : Request) (s : State), Taken q kindRouteClear false s →
      (orphanRuns s q.requester = true →
          exec (.routeClear q) s = .next (answered q kindRouteClear .busy [] (arrived q s)))
        ∧ (orphanRuns s q.requester = false → s.ready = false →
          exec (.routeClear q) s = .next (answered q kindRouteClear .notReady [] (arrived q s)))
        ∧ (orphanRuns s q.requester = false → s.ready = true → indexArg 64 q.args = none →
          exec (.routeClear q) s = .next (answered q kindRouteClear .badArg [] (arrived q s))))
    ∧ (∀ (w : WriteRequest) (r : RouteSpec) (rest : List WaitingWrite) (i : RouteIx) (old : Route) (s : State),
      s.writing = none → s.waiting = .set w r :: rest → RouteLaw s → s.route i = some old → old.stream = r.stream →
      (w.modify.getLsbD i.val = true ∨ old.owner = some w.requester →
          exec .routeWriteStart s = .next { s with waiting := rest, writing := some (.replace w r i) })
        ∧ (w.modify.getLsbD i.val = false → old.owner ≠ some w.requester →
          exec .routeWriteStart s = .next (endWrite w kindRouteSet .noAccess [] { s with waiting := rest })))
    ∧ (∀ (w : WriteRequest) (r : RouteSpec) (rest : List WaitingWrite) (i : RouteIx) (s : State),
      s.writing = none → s.waiting = .set w r :: rest → (∀ j, ∀ old ∈ s.route j, old.stream ≠ r.stream) →
      s.route i = none → w.modify.getLsbD i.val = true →
      (∀ j, j < i → s.route j = none → w.modify.getLsbD j.val = false) →
      exec .routeWriteStart s = .next { s with waiting := rest, writing := some (.create w r i) })
    ∧ (∀ (w : WriteRequest) (r : RouteSpec) (rest : List WaitingWrite) (s : State),
      s.writing = none → s.waiting = .set w r :: rest → (∀ j, ∀ old ∈ s.route j, old.stream ≠ r.stream) →
      (∀ j, s.route j = none → w.modify.getLsbD j.val = false) →
      exec .routeWriteStart s = .next (endWrite w kindRouteSet .full [] { s with waiting := rest }))
    ∧ (∀ (w : WriteRequest) (i : RouteIx) (rest : List WaitingWrite) (s : State),
      s.writing = none → s.waiting = .clear w i :: rest →
      (s.route i = none →
          exec .routeWriteStart s = .next (endWrite w kindRouteClear .notFound [] { s with waiting := rest }))
        ∧ (∀ old, s.route i = some old → w.modify.getLsbD i.val = true ∨ old.owner = some w.requester →
          exec .routeWriteStart s = .next { s with waiting := rest, writing := some (.clear w i) })
        ∧ ∀ old, s.route i = some old → w.modify.getLsbD i.val = false → old.owner ≠ some w.requester →
          exec .routeWriteStart s = .next (endWrite w kindRouteClear .noAccess [] { s with waiting := rest }))
    ∧ (∀ (w : WriteRequest) (r : RouteSpec) (i : RouteIx) (old : Route) (s : State),
      s.writing = some (.replace w r i) → s.route i = some old →
      ∃ t, exec .routeWriteComplete s = .next t ∧ t.writing = none
        ∧ t.route i = some { old with source := r.source, egress := r.egress, kind := r.kind, cls := r.cls, gate := r.gate }
        ∧ (∀ j, j ≠ i → t.route j = s.route j)
        ∧ holdsReleased (fun h => decide (h.stream = old.stream)
            && (decide (r.source ≠ old.source) || (old.egress.getLsbD h.egress && !r.egress.getLsbD h.egress))) s t
        ∧ (∀ rq, old.owner = some rq → rq ≠ w.requester → (t.client rq).news &&& Notice.route.bit = Notice.route.bit)
        ∧ WriteReplied w kindRouteSet [BitVec.ofNat 8 i.val, 0] s t ∧ Within (.writing :: written) s t)
    ∧ (∀ (w : WriteRequest) (r : RouteSpec) (i : RouteIx) (s : State), s.writing = some (.create w r i) →
      ∃ t, exec .routeWriteComplete s = .next t ∧ t.writing = none
        ∧ t.route i = some { stream := r.stream
                             source := r.source
                             egress := r.egress
                             kind := r.kind
                             cls := r.cls
                             gate := r.gate
                             used := false
                             owner := if w.departed then none else some w.requester }
        ∧ (∀ j, j ≠ i → t.route j = s.route j) ∧ t.holds = s.holds
        ∧ WriteReplied w kindRouteSet [BitVec.ofNat 8 i.val, 1] s t ∧ Within (.writing :: written) s t)
    ∧ ∀ (w : WriteRequest) (i : RouteIx) (old : Route) (s : State),
      s.writing = some (.clear w i) → s.route i = some old →
      ∃ t, exec .routeWriteComplete s = .next t ∧ t.writing = none ∧ t.route i = none
        ∧ (∀ j, j ≠ i → t.route j = s.route j)
        ∧ holdsReleased (fun h => decide (h.stream = old.stream)) s t
        ∧ (∀ rq, old.owner = some rq → rq ≠ w.requester → (t.client rq).news &&& Notice.route.bit = Notice.route.bit)
        ∧ WriteReplied w kindRouteClear [] s t ∧ Within (.writing :: written) s t

/-- O57. ROUTE_FIRST walks from 0 and ROUTE_NEXT from the requester's cursor to the first valid entry the requester may
read: the answer carries END when no such entry lies above, the cursor moves past it, and with none to find it is
NOTFOUND with END and the cursor 64 (R144). An entry found is answered with the fields and the index in the encoding of
log 15, of which the first are stated. While the switch is not ready, ROUTE_READ, ROUTE_FIRST and ROUTE_NEXT are
answered NOTREADY and change nothing (R143, R144, R150). -/
def Obligations.RouteWalksVisitReadableEntries : Prop :=
  (∀ (q : Request) (c : Instr) (kind : Byte) (cursor : Nat) (i : RouteIx) (r : Route) (s : State),
      (c = .routeFirst q ∧ kind = kindRouteFirst ∧ cursor = 0)
        ∨ (c = .routeNext q ∧ kind = kindRouteNext ∧ cursor = (s.client q.requester).cursor) →
      Taken q kind false s → s.ready = true → cursor ≤ i.val → s.route i = some r →
      mayReadRoute s q.requester i = true →
      (∀ j : RouteIx, cursor ≤ j.val → j < i → s.route j ≠ none → mayReadRoute s q.requester j = false) →
      exec c s
        = .next (answer q.requester q.tag kind .ok
            (!allRoutes.any fun j => decide (i < j) && ((s.route j).isSome && mayReadRoute s q.requester j))
            (routeWalkResults r i) ((arrived q s).modClient q.requester fun x => { x with cursor := i.val + 1 })))
    ∧ (∀ (r : Route) (i : RouteIx), ∃ rest : List Byte, routeWalkResults r i
      = [0] ++ be16 (r.stream.setWidth 16)
          ++ [BitVec.ofNat 8 r.source.val, r.egress.setWidth 8, r.kind.code, r.cls.code] ++ rest
          ++ [BitVec.ofNat 8 i.val])
    ∧ (∀ (q : Request) (c : Instr) (kind : Byte) (s : State),
      (c = .routeRead q ∧ kind = kindRouteRead) ∨ (c = .routeFirst q ∧ kind = kindRouteFirst)
        ∨ (c = .routeNext q ∧ kind = kindRouteNext) →
      Taken q kind false s → s.ready = false →
      exec c s = .next (answered q kind .notReady [] (arrived q s)))
    ∧ ∀ (q : Request) (c : Instr) (kind : Byte) (cursor : Nat) (s : State),
      (c = .routeFirst q ∧ kind = kindRouteFirst ∧ cursor = 0)
        ∨ (c = .routeNext q ∧ kind = kindRouteNext ∧ cursor = (s.client q.requester).cursor) →
      Taken q kind false s → s.ready = true →
      (∀ j : RouteIx, cursor ≤ j.val → s.route j ≠ none → mayReadRoute s q.requester j = false) →
      exec c s
        = .next (answer q.requester q.tag kind .notFound true []
            ((arrived q s).modClient q.requester fun x => { x with cursor := 64 }))

/-! ### Requests (chapter 10) -/

/-- A read transaction that is carried out whole, or that has come to its end: it began with status byte `status`, and
no response is held back (R170). -/
def readEnds (part : ReadPart) (status : Byte) (count : Nat) (s : State) : Prop :=
  (part = .whole count ∧ s.rcp.framing = .awaitingFall ∧ status = spiStatus s ∧ s.rcp.held = none)
    ∨ (part = .ends count ∧ s.rcp.framing = .reading status ∧ s.rcp.held = none)

/-- O58. A read transaction shifts out the status byte, of the moment it began, and then the buffered response, or
zeros where none is held; the response is marked read once it has been shifted out whole, and stays in the buffer; what
follows a whole response is not claimed (log 6). A response produced while one is in progress is held, the buffer as it
was; when it ends, the read mark is set or left, and the held response is then written, with PREV_UNREAD if the
response it replaces is unread, and its request is no longer in progress (R169, R170, R184). A read transaction begins
and ends apart so that commands can come between (log 23). A discarded transaction changes nothing (R170). ACCESS_SET
from the RCP writes or empties one entry of the access table, and bad arguments are BADARG: an entry above 7, an unknown
space, an index outside its space, the first index above the last, for the space ALL too, and a set with more than F0 to
F5 (R172); that no index lies outside ALL is the model's choice (log 27). -/
def Obligations.RcpTransactionsAndAccess : Prop :=
  (∀ (part : ReadPart) (status : Byte) (count : Nat) (r : Response) (s : State), readEnds part status count s →
      s.rcp.buffer = some r → count ≤ 1 + r.bytes.length →
      ∃ t, exec (.rcpReadTransaction part) s = .next t
        ∧ t.rcp.shiftedOut = (status :: r.bytes).take count
        ∧ t.rcp.readMark = (s.rcp.readMark || decide (count = 1 + r.bytes.length))
        ∧ t.rcp.buffer = some r ∧ t.rcp.framing = .awaitingFall ∧ t.rcp.held = none ∧ Within [.rcp] s t)
    ∧ (∀ (part : ReadPart) (status : Byte) (count : Nat) (r : Response) (s : State), readEnds part status count s →
      s.rcp.buffer = some r → 1 + r.bytes.length < count →
      ∃ t, exec (.rcpReadTransaction part) s = .next t
        ∧ t.rcp.shiftedOut.take (1 + r.bytes.length) = status :: r.bytes ∧ t.rcp.shiftedOut.length = count
        ∧ t.rcp.readMark = true ∧ t.rcp.buffer = some r ∧ t.rcp.framing = .awaitingFall ∧ t.rcp.held = none
        ∧ Within [.rcp] s t)
    ∧ (∀ (part : ReadPart) (status : Byte) (count : Nat) (s : State), readEnds part status count s →
      s.rcp.buffer = none →
      ∃ t, exec (.rcpReadTransaction part) s = .next t
        ∧ t.rcp.shiftedOut = (status :: List.replicate count 0).take count
        ∧ t.rcp.readMark = s.rcp.readMark ∧ t.rcp.buffer = none ∧ t.rcp.framing = .awaitingFall ∧ t.rcp.held = none
        ∧ Within [.rcp] s t)
    ∧ (∀ s : State, s.rcp.framing = .awaitingFall →
      exec (.rcpReadTransaction .begins) s
        = .next { s with rcp := { s.rcp with framing := .reading (spiStatus s) } })
    ∧ (∀ (status : Byte) (r : Response) (s : State), s.rcp.framing = .reading status →
      respond .rcp r s = { s with rcp := { s.rcp with held := some r } })
    ∧ (∀ (status : Byte) (count : Nat) (r : Response) (s : State), s.rcp.framing = .reading status →
      s.rcp.held = some r →
      ∃ t, exec (.rcpReadTransaction (.ends count)) s = .next t
        ∧ t.rcp.buffer = some { r with
            prevUnread := s.rcp.buffer.any fun old => !(s.rcp.readMark || decide (1 + old.bytes.length ≤ count)) }
        ∧ t.rcp.readMark = false ∧ t.rcp.held = none ∧ t.rcp.framing = .awaitingFall
        ∧ (∀ old, s.rcp.buffer = some old → count ≤ 1 + old.bytes.length →
            t.rcp.shiftedOut = (status :: old.bytes).take count)
        ∧ t.client .rcp = { s.client .rcp with busy := false } ∧ (∀ rq, rq ≠ .rcp → t.client rq = s.client rq)
        ∧ Within [.rcp, .clients, .flags] s t)
    ∧ (∀ s : State, (spiStatus s).getLsbD 0 = s.busy .rcp ∧ (spiStatus s).getLsbD 1 = s.rcp.buffer.isSome
      ∧ (spiStatus s).getLsbD 2 = (s.rcp.buffer.isSome && s.rcp.readMark))
    ∧ (∀ (bytes : List Byte) (s : State), exec (.rcpTransactionDiscarded bytes) s = .next s)
    ∧ (∀ (q : Request) (i : Fin 8) (e : AccessEntry) (s : State), Taken q kindAccessSet false s →
      indexArg 8 q.args = some i → accessArgs (q.args.drop 1) = some e →
      exec (.accessSetWrite q) s
        = .next (answered q kindAccessSet .ok [] { s with access := s.access.set i (some e) }) ∧ q.requester = .rcp)
    ∧ (∀ (q : Request) (i : Fin 8) (s : State), Taken q kindAccessSet false s → indexArg 8 q.args = some i →
      exec (.accessSetEmpty q) s
        = .next (answered q kindAccessSet .ok [] { s with access := s.access.set i none }) ∧ q.requester = .rcp)
    ∧ (∀ (q : Request) (i space first last read modify : Byte) (rest : List Byte) (s : State),
      Taken q kindAccessSet false s → q.args = i :: 0 :: space :: first :: last :: read :: modify :: rest →
      (7 < i.toNat ∨ 8 < space.toNat ∨ last.toNat < first.toNat ∨ 63 < read.toNat ∨ 63 < modify.toNat
          ∨ (∃ sp : Space, space = sp.code ∧ sp ≠ .all ∧ spaceMax sp < last.toNat) →
          exec (.accessSetWrite q) s = .next (answered q kindAccessSet .badArg [] s))
        ∧ (∀ (k : Fin 8) (sp : Space), k.val = i.toNat → space = sp.code → first.toNat ≤ last.toNat →
          read.toNat ≤ 63 → modify.toNat ≤ 63 → sp = .all ∨ last.toNat ≤ spaceMax sp →
          exec (.accessSetWrite q) s
            = .next (answered q kindAccessSet .ok [] { s with access := s.access.set k (some
                { space := sp
                  first := first.toNat
                  last := last.toNat
                  read := read.setWidth 6
                  modify := modify.setWidth 6 }) })))
    ∧ ∀ (q : Request) (s : State), Taken q kindAccessSet false s →
      (indexArg 8 q.args = none ∨ accessArgs (q.args.drop 1) = none →
          exec (.accessSetWrite q) s = .next (answered q kindAccessSet .badArg [] s))
        ∧ (indexArg 8 q.args = none → exec (.accessSetEmpty q) s = .next (answered q kindAccessSet .badArg [] s))

/-- O59. COUNTER_READ answers a set of counters. With the clear option and modify permission the set is then 0, in one
step; with read permission alone it is answered NOACCESS_CLEAR with the values and nothing is cleared; without read
permission NOACCESS, and for a set number above 6 BADARG (R174). That a clear option with no meaning is BADARG before
the access check is the model's choice (log 20). -/
def Obligations.CounterReadsAndClears : Prop :=
  (∀ (q : Request) (i : Fin 7) (clear : Bool) (s : State), Taken q kindCounterRead false s →
      counterArgs q.args = some (i, clear) → mayRead s q.requester .counters i.val = true →
      exec (.counterRead q) s
        = .next (answered q kindCounterRead .ok (counterSetResults (arrived q s) i) (arrived q s)))
    ∧ (∀ (q : Request) (i : Fin 7) (n : Link) (clear : Bool) (s : State), Taken q kindCounterRead true s →
      counterArgs q.args = some (i, clear) → i.val = n.val → mayModify s q.requester .counters i.val = true →
      ∃ t, exec (.counterReadClear q) s
          = .next (answered q kindCounterRead .ok (linkCounterResults (arrived q s) n) t)
        ∧ (∀ k, t.counter n k = 0) ∧ (∀ m k, m ≠ n → t.counter m k = (arrived q s).counter m k)
        ∧ Within [.counters] (arrived q s) t)
    ∧ (∀ (q : Request) (i : Fin 7) (clear : Bool) (s : State), Taken q kindCounterRead true s →
      counterArgs q.args = some (i, clear) → i.val = 6 → mayModify s q.requester .counters i.val = true →
      exec (.counterReadClear q) s
        = .next (answered q kindCounterRead .ok (globalCounterResults (arrived q s))
            { arrived q s with initDrop := 0, captureOverflow := 0 }))
    ∧ (∀ (q : Request) (i : Fin 7) (clear : Bool) (s : State), Taken q kindCounterRead true s →
      counterArgs q.args = some (i, clear) → mayModify s q.requester .counters i.val = false →
      mayRead s q.requester .counters i.val = true →
      exec (.counterReadClear q) s
        = .next (answered q kindCounterRead .noAccessClear (counterSetResults (arrived q s) i) (arrived q s)))
    ∧ (∀ (q : Request) (s : State), counterArgs q.args = none →
      (Taken q kindCounterRead false s →
          exec (.counterRead q) s = .next (answered q kindCounterRead .badArg [] (arrived q s)))
        ∧ (Taken q kindCounterRead true s →
          exec (.counterReadClear q) s = .next (answered q kindCounterRead .badArg [] (arrived q s))))
    ∧ ∀ (q : Request) (i : Fin 7) (clear : Bool) (s : State), counterArgs q.args = some (i, clear) →
      mayRead s q.requester .counters i.val = false →
      (Taken q kindCounterRead false s →
          exec (.counterRead q) s = .next (answered q kindCounterRead .noAccess [] (arrived q s)))
        ∧ (Taken q kindCounterRead true s →
          exec (.counterReadClear q) s = .next (answered q kindCounterRead .noAccess [] (arrived q s)))

/-- Cells of the CONTROL and NOTICE category have been offered to link `n`, in this order: an idle transmitter sends the
first and the others wait, and otherwise they wait as the newest of their category (R12). -/
def ctrlOffered (n : Link) (cells : List CtrlCell) (s t : State) : Prop :=
  ((s.port n).state = .up → (s.port n).tx = none → takeWaiting (s.port n) = none →
      (t.port n).tx = cells.head?.map (fun c => .cell (.ctrl c)) ∧ (t.port n).waitCtrl = cells.tail)
    ∧ (inService (s.port n).state = true → ((s.port n).state = .up → (s.port n).tx ≠ none) →
      (t.port n).tx = (s.port n).tx ∧ (t.port n).waitCtrl = (s.port n).waitCtrl ++ cells)

/-- The response OK of a NOTICE_MASK. -/
def maskResponse (q : Request) : CtrlCell :=
  .control { tag := q.tag, kind := kindNoticeMask, status := .ok, prevUnread := false, endFlag := false, results := [] }

/-- What a NOTICE_READ returns: the pending set and the mask, one byte each in the form of the NOTICE body (R175, R185).
-/
def noticeResults (c : Client) : List Byte := [c.news.setWidth 8, c.mask.setWidth 8]

/-- O60. NOTICE_READ answers OK with the pending set and the mask, one byte each, and clears the set and a frame's
notice-outstanding flag; the kinds LINK, MARGIN, ROSTER, TIME, TRIGGER, CAPTURE and ROUTE are bits 0 to 6 of such a
byte (R175, R185). NOTICE_MASK stores the mask, leaves the pending set, and is answered OK; a pending kind that the
mask admits is told at once: for the RCP by ATTN, for a frame by a NOTICE cell with its pending set on its own link,
unless one is outstanding, when there is no further one (R175, R176). That this cell goes before the response is the
model's choice (log 12). A kind set pending for a frame joins its pending set, and offers a NOTICE cell in the same
way, or none where the mask does not admit it, one is outstanding, or the link is not in service (R175, R176). ATTN is
low while the RCP has a kind pending that its mask admits, and high otherwise (R177). -/
def Obligations.NoticeReadAndMask : Prop :=
  (∀ (q : Request) (s : State), Taken q kindNoticeRead false s → q.requester = .rcp →
      ∃ t, exec (.noticeRead q) s = .next t
        ∧ t = answered q kindNoticeRead .ok (noticeResults (s.client .rcp))
            (s.modClient .rcp fun c => { c with news := 0 })
        ∧ t.client .rcp = { s.client .rcp with news := 0 } ∧ attnLevel t = true
        ∧ Replied q kindNoticeRead .ok (noticeResults (s.client .rcp)) s t)
    ∧ (∀ (q : Request) (n : Link) (s : State), Taken q kindNoticeRead false s → q.requester = .frame n →
      ∃ t, exec (.noticeRead q) s = .next t
        ∧ t = answered q kindNoticeRead .ok (noticeResults (s.client (.frame n)))
            (((arrived q s).modClient (.frame n) fun c => { c with news := 0 }).setOutstanding n false)
        ∧ t.client (.frame n) = { s.client (.frame n) with news := 0 } ∧ t.outstanding[n] = false
        ∧ Replied q kindNoticeRead .ok (noticeResults (s.client (.frame n))) s t)
    ∧ (∀ (q : Request) (m : Byte) (rest : List Byte) (s : State), Taken q kindNoticeMask false s →
      q.args = m :: rest → m.getLsbD 7 = false → q.requester = .rcp →
      ∃ t, exec (.noticeMask q) s = .next t ∧ (t.client .rcp) = { s.client .rcp with mask := m.setWidth 7 }
        ∧ (attnLevel t = false ↔ (s.client .rcp).news &&& m.setWidth 7 ≠ 0)
        ∧ Replied q kindNoticeMask .ok [] s t ∧ Within [.clients, .flags, .rcp] s t)
    ∧ (∀ (q : Request) (m : Byte) (rest : List Byte) (n : Link) (s : State), Taken q kindNoticeMask false s →
      q.args = m :: rest → m.getLsbD 7 = false → q.requester = .frame n →
      (s.client (.frame n)).news &&& m.setWidth 7 ≠ 0 → s.outstanding[n] = false →
      ∃ t, exec (.noticeMask q) s = .next t
        ∧ t.client (.frame n) = { s.client (.frame n) with mask := m.setWidth 7 }
        ∧ t.outstanding = s.outstanding.set n true
        ∧ ctrlOffered n [.notice (s.client (.frame n)).news, maskResponse q] s t
        ∧ (∀ k, k ≠ n → t.port k = s.port k)
        ∧ Replied q kindNoticeMask .ok [] s t ∧ Within (.outstanding :: asked) s t)
    ∧ (∀ (q : Request) (m : Byte) (rest : List Byte) (n : Link) (s : State), Taken q kindNoticeMask false s →
      q.args = m :: rest → m.getLsbD 7 = false → q.requester = .frame n →
      (s.client (.frame n)).news &&& m.setWidth 7 = 0 ∨ s.outstanding[n] = true →
      ∃ t, exec (.noticeMask q) s = .next t
        ∧ t.client (.frame n) = { s.client (.frame n) with mask := m.setWidth 7 }
        ∧ t.outstanding = s.outstanding ∧ ctrlOffered n [maskResponse q] s t
        ∧ (∀ k, k ≠ n → t.port k = s.port k)
        ∧ Replied q kindNoticeMask .ok [] s t ∧ Within asked s t)
    ∧ (∀ (q : Request) (m : Byte) (rest : List Byte) (s : State), Taken q kindNoticeMask false s →
      q.args = m :: rest → m.getLsbD 7 = true →
      exec (.noticeMask q) s = .next (answered q kindNoticeMask .badArg [] (arrived q s)))
    ∧ (∀ (k : Notice) (n : Link) (s : State), s.outstanding[n] = false → (s.client (.frame n)).mask &&& k.bit ≠ 0 →
      inService (s.port n).state = true →
      (notify k s (.frame n)).client (.frame n)
          = { s.client (.frame n) with news := (s.client (.frame n)).news ||| k.bit }
        ∧ (notify k s (.frame n)).outstanding = s.outstanding.set n true
        ∧ ctrlOffered n [.notice ((s.client (.frame n)).news ||| k.bit)] s (notify k s (.frame n))
        ∧ Within told s (notify k s (.frame n)))
    ∧ (∀ (k : Notice) (n : Link) (s : State),
      s.outstanding[n] = true ∨ (s.client (.frame n)).mask &&& k.bit = 0 ∨ inService (s.port n).state = false →
      notify k s (.frame n) = s.modClient (.frame n) fun c => { c with news := c.news ||| k.bit })
    ∧ ([Notice.link, .margin, .roster, .time, .trigger, .capture, .route].map (·.bit) = [1, 2, 4, 8, 16, 32, 64])
    ∧ ∀ s : State, attnLevel s = false ↔ (s.client .rcp).news &&& (s.client .rcp).mask ≠ 0
end

