-- ==== Sys2Proof/Laws/State.lean ====
section
/-! SUPPORT. What each update of one part of the state does to each field and each part: one lemma per field and
update, so that no proof unfolds a record update. -/

namespace Sys2Proof.Machine

variable (s : State)

/-! ### State.modPort -/

@[simp] theorem modPort_pending (n : Link) (f : LinkPort → LinkPort) : (s.modPort n f).pending = s.pending := rfl
@[simp] theorem modPort_osc (n : Link) (f : LinkPort → LinkPort) : (s.modPort n f).osc = s.osc := rfl
@[simp] theorem modPort_idleNs (n : Link) (f : LinkPort → LinkPort) : (s.modPort n f).idleNs = s.idleNs := rfl
@[simp] theorem modPort_resetAsserted (n : Link) (f : LinkPort → LinkPort) : (s.modPort n f).resetAsserted = s.resetAsserted := rfl
@[simp] theorem modPort_rack (n : Link) (f : LinkPort → LinkPort) : (s.modPort n f).rack = s.rack := rfl
@[simp] theorem modPort_frac (n : Link) (f : LinkPort → LinkPort) : (s.modPort n f).frac = s.frac := rfl
@[simp] theorem modPort_fracRem (n : Link) (f : LinkPort → LinkPort) : (s.modPort n f).fracRem = s.fracRem := rfl
@[simp] theorem modPort_tb (n : Link) (f : LinkPort → LinkPort) : (s.modPort n f).tb = s.tb := rfl
@[simp] theorem modPort_syncs (n : Link) (f : LinkPort → LinkPort) : (s.modPort n f).syncs = s.syncs := rfl
@[simp] theorem modPort_counters (n : Link) (f : LinkPort → LinkPort) : (s.modPort n f).counters = s.counters := rfl
@[simp] theorem modPort_initDrop (n : Link) (f : LinkPort → LinkPort) : (s.modPort n f).initDrop = s.initDrop := rfl
@[simp] theorem modPort_captureOverflow (n : Link) (f : LinkPort → LinkPort) : (s.modPort n f).captureOverflow = s.captureOverflow := rfl
@[simp] theorem modPort_margins (n : Link) (f : LinkPort → LinkPort) : (s.modPort n f).margins = s.margins := rfl
@[simp] theorem modPort_roster (n : Link) (f : LinkPort → LinkPort) : (s.modPort n f).roster = s.roster := rfl
@[simp] theorem modPort_admitMinSteps (n : Link) (f : LinkPort → LinkPort) : (s.modPort n f).admitMinSteps = s.admitMinSteps := rfl
@[simp] theorem modPort_drainLimitMs (n : Link) (f : LinkPort → LinkPort) : (s.modPort n f).drainLimitMs = s.drainLimitMs := rfl
@[simp] theorem modPort_lines (n : Link) (f : LinkPort → LinkPort) : (s.modPort n f).lines = s.lines := rfl
@[simp] theorem modPort_panel (n : Link) (f : LinkPort → LinkPort) : (s.modPort n f).panel = s.panel := rfl
@[simp] theorem modPort_trigs (n : Link) (f : LinkPort → LinkPort) : (s.modPort n f).trigs = s.trigs := rfl
@[simp] theorem modPort_captures (n : Link) (f : LinkPort → LinkPort) : (s.modPort n f).captures = s.captures := rfl
@[simp] theorem modPort_captureCount (n : Link) (f : LinkPort → LinkPort) : (s.modPort n f).captureCount = s.captureCount := rfl
@[simp] theorem modPort_lead (n : Link) (f : LinkPort → LinkPort) : (s.modPort n f).lead = s.lead := rfl
@[simp] theorem modPort_routes (n : Link) (f : LinkPort → LinkPort) : (s.modPort n f).routes = s.routes := rfl
@[simp] theorem modPort_writing (n : Link) (f : LinkPort → LinkPort) : (s.modPort n f).writing = s.writing := rfl
@[simp] theorem modPort_waiting (n : Link) (f : LinkPort → LinkPort) : (s.modPort n f).waiting = s.waiting := rfl
@[simp] theorem modPort_ready (n : Link) (f : LinkPort → LinkPort) : (s.modPort n f).ready = s.ready := rfl
@[simp] theorem modPort_agingEnds (n : Link) (f : LinkPort → LinkPort) : (s.modPort n f).agingEnds = s.agingEnds := rfl
@[simp] theorem modPort_agingInterval (n : Link) (f : LinkPort → LinkPort) : (s.modPort n f).agingInterval = s.agingInterval := rfl
@[simp] theorem modPort_highMark (n : Link) (f : LinkPort → LinkPort) : (s.modPort n f).highMark = s.highMark := rfl
@[simp] theorem modPort_lowMark (n : Link) (f : LinkPort → LinkPort) : (s.modPort n f).lowMark = s.lowMark := rfl
@[simp] theorem modPort_holdTime (n : Link) (f : LinkPort → LinkPort) : (s.modPort n f).holdTime = s.holdTime := rfl
@[simp] theorem modPort_pool (n : Link) (f : LinkPort → LinkPort) : (s.modPort n f).pool = s.pool := rfl
@[simp] theorem modPort_egress (n : Link) (f : LinkPort → LinkPort) : (s.modPort n f).egress = s.egress := rfl
@[simp] theorem modPort_holds (n : Link) (f : LinkPort → LinkPort) : (s.modPort n f).holds = s.holds := rfl
@[simp] theorem modPort_access (n : Link) (f : LinkPort → LinkPort) : (s.modPort n f).access = s.access := rfl
@[simp] theorem modPort_clients (n : Link) (f : LinkPort → LinkPort) : (s.modPort n f).clients = s.clients := rfl
@[simp] theorem modPort_outstanding (n : Link) (f : LinkPort → LinkPort) : (s.modPort n f).outstanding = s.outstanding := rfl
@[simp] theorem modPort_rcp (n : Link) (f : LinkPort → LinkPort) : (s.modPort n f).rcp = s.rcp := rfl
@[simp] theorem modPort_entry (n : Link) (f : LinkPort → LinkPort) (m : Link) : (s.modPort n f).entry m = s.entry m := rfl
@[simp] theorem modPort_margin (n : Link) (f : LinkPort → LinkPort) (m : Link) : (s.modPort n f).margin m = s.margin m := rfl
@[simp] theorem modPort_line (n : Link) (f : LinkPort → LinkPort) (m : Link) : (s.modPort n f).line m = s.line m := rfl
@[simp] theorem modPort_sync (n : Link) (f : LinkPort → LinkPort) (m : Link) : (s.modPort n f).sync m = s.sync m := rfl
@[simp] theorem modPort_queues (n : Link) (f : LinkPort → LinkPort) (m : Link) : (s.modPort n f).queues m = s.queues m := rfl
@[simp] theorem modPort_trig (n : Link) (f : LinkPort → LinkPort) (j : TrigIx) : (s.modPort n f).trig j = s.trig j := rfl
@[simp] theorem modPort_route (n : Link) (f : LinkPort → LinkPort) (j : RouteIx) : (s.modPort n f).route j = s.route j := rfl
@[simp] theorem modPort_slot (n : Link) (f : LinkPort → LinkPort) (j : SlotIx) : (s.modPort n f).slot j = s.slot j := rfl
@[simp] theorem modPort_client (n : Link) (f : LinkPort → LinkPort) (rq2 : Requester) : (s.modPort n f).client rq2 = s.client rq2 := rfl
@[simp] theorem modPort_counter (n : Link) (f : LinkPort → LinkPort) (m : Link) (d : LinkCounter) : (s.modPort n f).counter m d = s.counter m d := rfl

/-! ### State.modEntry -/

@[simp] theorem modEntry_pending (n : Link) (f : RosterEntry → RosterEntry) : (s.modEntry n f).pending = s.pending := rfl
@[simp] theorem modEntry_osc (n : Link) (f : RosterEntry → RosterEntry) : (s.modEntry n f).osc = s.osc := rfl
@[simp] theorem modEntry_idleNs (n : Link) (f : RosterEntry → RosterEntry) : (s.modEntry n f).idleNs = s.idleNs := rfl
@[simp] theorem modEntry_resetAsserted (n : Link) (f : RosterEntry → RosterEntry) : (s.modEntry n f).resetAsserted = s.resetAsserted := rfl
@[simp] theorem modEntry_rack (n : Link) (f : RosterEntry → RosterEntry) : (s.modEntry n f).rack = s.rack := rfl
@[simp] theorem modEntry_frac (n : Link) (f : RosterEntry → RosterEntry) : (s.modEntry n f).frac = s.frac := rfl
@[simp] theorem modEntry_fracRem (n : Link) (f : RosterEntry → RosterEntry) : (s.modEntry n f).fracRem = s.fracRem := rfl
@[simp] theorem modEntry_tb (n : Link) (f : RosterEntry → RosterEntry) : (s.modEntry n f).tb = s.tb := rfl
@[simp] theorem modEntry_syncs (n : Link) (f : RosterEntry → RosterEntry) : (s.modEntry n f).syncs = s.syncs := rfl
@[simp] theorem modEntry_ports (n : Link) (f : RosterEntry → RosterEntry) : (s.modEntry n f).ports = s.ports := rfl
@[simp] theorem modEntry_counters (n : Link) (f : RosterEntry → RosterEntry) : (s.modEntry n f).counters = s.counters := rfl
@[simp] theorem modEntry_initDrop (n : Link) (f : RosterEntry → RosterEntry) : (s.modEntry n f).initDrop = s.initDrop := rfl
@[simp] theorem modEntry_captureOverflow (n : Link) (f : RosterEntry → RosterEntry) : (s.modEntry n f).captureOverflow = s.captureOverflow := rfl
@[simp] theorem modEntry_margins (n : Link) (f : RosterEntry → RosterEntry) : (s.modEntry n f).margins = s.margins := rfl
@[simp] theorem modEntry_admitMinSteps (n : Link) (f : RosterEntry → RosterEntry) : (s.modEntry n f).admitMinSteps = s.admitMinSteps := rfl
@[simp] theorem modEntry_drainLimitMs (n : Link) (f : RosterEntry → RosterEntry) : (s.modEntry n f).drainLimitMs = s.drainLimitMs := rfl
@[simp] theorem modEntry_lines (n : Link) (f : RosterEntry → RosterEntry) : (s.modEntry n f).lines = s.lines := rfl
@[simp] theorem modEntry_panel (n : Link) (f : RosterEntry → RosterEntry) : (s.modEntry n f).panel = s.panel := rfl
@[simp] theorem modEntry_trigs (n : Link) (f : RosterEntry → RosterEntry) : (s.modEntry n f).trigs = s.trigs := rfl
@[simp] theorem modEntry_captures (n : Link) (f : RosterEntry → RosterEntry) : (s.modEntry n f).captures = s.captures := rfl
@[simp] theorem modEntry_captureCount (n : Link) (f : RosterEntry → RosterEntry) : (s.modEntry n f).captureCount = s.captureCount := rfl
@[simp] theorem modEntry_lead (n : Link) (f : RosterEntry → RosterEntry) : (s.modEntry n f).lead = s.lead := rfl
@[simp] theorem modEntry_routes (n : Link) (f : RosterEntry → RosterEntry) : (s.modEntry n f).routes = s.routes := rfl
@[simp] theorem modEntry_writing (n : Link) (f : RosterEntry → RosterEntry) : (s.modEntry n f).writing = s.writing := rfl
@[simp] theorem modEntry_waiting (n : Link) (f : RosterEntry → RosterEntry) : (s.modEntry n f).waiting = s.waiting := rfl
@[simp] theorem modEntry_ready (n : Link) (f : RosterEntry → RosterEntry) : (s.modEntry n f).ready = s.ready := rfl
@[simp] theorem modEntry_agingEnds (n : Link) (f : RosterEntry → RosterEntry) : (s.modEntry n f).agingEnds = s.agingEnds := rfl
@[simp] theorem modEntry_agingInterval (n : Link) (f : RosterEntry → RosterEntry) : (s.modEntry n f).agingInterval = s.agingInterval := rfl
@[simp] theorem modEntry_highMark (n : Link) (f : RosterEntry → RosterEntry) : (s.modEntry n f).highMark = s.highMark := rfl
@[simp] theorem modEntry_lowMark (n : Link) (f : RosterEntry → RosterEntry) : (s.modEntry n f).lowMark = s.lowMark := rfl
@[simp] theorem modEntry_holdTime (n : Link) (f : RosterEntry → RosterEntry) : (s.modEntry n f).holdTime = s.holdTime := rfl
@[simp] theorem modEntry_pool (n : Link) (f : RosterEntry → RosterEntry) : (s.modEntry n f).pool = s.pool := rfl
@[simp] theorem modEntry_egress (n : Link) (f : RosterEntry → RosterEntry) : (s.modEntry n f).egress = s.egress := rfl
@[simp] theorem modEntry_holds (n : Link) (f : RosterEntry → RosterEntry) : (s.modEntry n f).holds = s.holds := rfl
@[simp] theorem modEntry_access (n : Link) (f : RosterEntry → RosterEntry) : (s.modEntry n f).access = s.access := rfl
@[simp] theorem modEntry_clients (n : Link) (f : RosterEntry → RosterEntry) : (s.modEntry n f).clients = s.clients := rfl
@[simp] theorem modEntry_outstanding (n : Link) (f : RosterEntry → RosterEntry) : (s.modEntry n f).outstanding = s.outstanding := rfl
@[simp] theorem modEntry_rcp (n : Link) (f : RosterEntry → RosterEntry) : (s.modEntry n f).rcp = s.rcp := rfl
@[simp] theorem modEntry_port (n : Link) (f : RosterEntry → RosterEntry) (m : Link) : (s.modEntry n f).port m = s.port m := rfl
@[simp] theorem modEntry_margin (n : Link) (f : RosterEntry → RosterEntry) (m : Link) : (s.modEntry n f).margin m = s.margin m := rfl
@[simp] theorem modEntry_line (n : Link) (f : RosterEntry → RosterEntry) (m : Link) : (s.modEntry n f).line m = s.line m := rfl
@[simp] theorem modEntry_sync (n : Link) (f : RosterEntry → RosterEntry) (m : Link) : (s.modEntry n f).sync m = s.sync m := rfl
@[simp] theorem modEntry_queues (n : Link) (f : RosterEntry → RosterEntry) (m : Link) : (s.modEntry n f).queues m = s.queues m := rfl
@[simp] theorem modEntry_trig (n : Link) (f : RosterEntry → RosterEntry) (j : TrigIx) : (s.modEntry n f).trig j = s.trig j := rfl
@[simp] theorem modEntry_route (n : Link) (f : RosterEntry → RosterEntry) (j : RouteIx) : (s.modEntry n f).route j = s.route j := rfl
@[simp] theorem modEntry_slot (n : Link) (f : RosterEntry → RosterEntry) (j : SlotIx) : (s.modEntry n f).slot j = s.slot j := rfl
@[simp] theorem modEntry_client (n : Link) (f : RosterEntry → RosterEntry) (rq2 : Requester) : (s.modEntry n f).client rq2 = s.client rq2 := rfl
@[simp] theorem modEntry_counter (n : Link) (f : RosterEntry → RosterEntry) (m : Link) (d : LinkCounter) : (s.modEntry n f).counter m d = s.counter m d := rfl

/-! ### State.modMargin -/

@[simp] theorem modMargin_pending (n : Link) (f : MarginUnit → MarginUnit) : (s.modMargin n f).pending = s.pending := rfl
@[simp] theorem modMargin_osc (n : Link) (f : MarginUnit → MarginUnit) : (s.modMargin n f).osc = s.osc := rfl
@[simp] theorem modMargin_idleNs (n : Link) (f : MarginUnit → MarginUnit) : (s.modMargin n f).idleNs = s.idleNs := rfl
@[simp] theorem modMargin_resetAsserted (n : Link) (f : MarginUnit → MarginUnit) : (s.modMargin n f).resetAsserted = s.resetAsserted := rfl
@[simp] theorem modMargin_rack (n : Link) (f : MarginUnit → MarginUnit) : (s.modMargin n f).rack = s.rack := rfl
@[simp] theorem modMargin_frac (n : Link) (f : MarginUnit → MarginUnit) : (s.modMargin n f).frac = s.frac := rfl
@[simp] theorem modMargin_fracRem (n : Link) (f : MarginUnit → MarginUnit) : (s.modMargin n f).fracRem = s.fracRem := rfl
@[simp] theorem modMargin_tb (n : Link) (f : MarginUnit → MarginUnit) : (s.modMargin n f).tb = s.tb := rfl
@[simp] theorem modMargin_syncs (n : Link) (f : MarginUnit → MarginUnit) : (s.modMargin n f).syncs = s.syncs := rfl
@[simp] theorem modMargin_ports (n : Link) (f : MarginUnit → MarginUnit) : (s.modMargin n f).ports = s.ports := rfl
@[simp] theorem modMargin_counters (n : Link) (f : MarginUnit → MarginUnit) : (s.modMargin n f).counters = s.counters := rfl
@[simp] theorem modMargin_initDrop (n : Link) (f : MarginUnit → MarginUnit) : (s.modMargin n f).initDrop = s.initDrop := rfl
@[simp] theorem modMargin_captureOverflow (n : Link) (f : MarginUnit → MarginUnit) : (s.modMargin n f).captureOverflow = s.captureOverflow := rfl
@[simp] theorem modMargin_roster (n : Link) (f : MarginUnit → MarginUnit) : (s.modMargin n f).roster = s.roster := rfl
@[simp] theorem modMargin_admitMinSteps (n : Link) (f : MarginUnit → MarginUnit) : (s.modMargin n f).admitMinSteps = s.admitMinSteps := rfl
@[simp] theorem modMargin_drainLimitMs (n : Link) (f : MarginUnit → MarginUnit) : (s.modMargin n f).drainLimitMs = s.drainLimitMs := rfl
@[simp] theorem modMargin_lines (n : Link) (f : MarginUnit → MarginUnit) : (s.modMargin n f).lines = s.lines := rfl
@[simp] theorem modMargin_panel (n : Link) (f : MarginUnit → MarginUnit) : (s.modMargin n f).panel = s.panel := rfl
@[simp] theorem modMargin_trigs (n : Link) (f : MarginUnit → MarginUnit) : (s.modMargin n f).trigs = s.trigs := rfl
@[simp] theorem modMargin_captures (n : Link) (f : MarginUnit → MarginUnit) : (s.modMargin n f).captures = s.captures := rfl
@[simp] theorem modMargin_captureCount (n : Link) (f : MarginUnit → MarginUnit) : (s.modMargin n f).captureCount = s.captureCount := rfl
@[simp] theorem modMargin_lead (n : Link) (f : MarginUnit → MarginUnit) : (s.modMargin n f).lead = s.lead := rfl
@[simp] theorem modMargin_routes (n : Link) (f : MarginUnit → MarginUnit) : (s.modMargin n f).routes = s.routes := rfl
@[simp] theorem modMargin_writing (n : Link) (f : MarginUnit → MarginUnit) : (s.modMargin n f).writing = s.writing := rfl
@[simp] theorem modMargin_waiting (n : Link) (f : MarginUnit → MarginUnit) : (s.modMargin n f).waiting = s.waiting := rfl
@[simp] theorem modMargin_ready (n : Link) (f : MarginUnit → MarginUnit) : (s.modMargin n f).ready = s.ready := rfl
@[simp] theorem modMargin_agingEnds (n : Link) (f : MarginUnit → MarginUnit) : (s.modMargin n f).agingEnds = s.agingEnds := rfl
@[simp] theorem modMargin_agingInterval (n : Link) (f : MarginUnit → MarginUnit) : (s.modMargin n f).agingInterval = s.agingInterval := rfl
@[simp] theorem modMargin_highMark (n : Link) (f : MarginUnit → MarginUnit) : (s.modMargin n f).highMark = s.highMark := rfl
@[simp] theorem modMargin_lowMark (n : Link) (f : MarginUnit → MarginUnit) : (s.modMargin n f).lowMark = s.lowMark := rfl
@[simp] theorem modMargin_holdTime (n : Link) (f : MarginUnit → MarginUnit) : (s.modMargin n f).holdTime = s.holdTime := rfl
@[simp] theorem modMargin_pool (n : Link) (f : MarginUnit → MarginUnit) : (s.modMargin n f).pool = s.pool := rfl
@[simp] theorem modMargin_egress (n : Link) (f : MarginUnit → MarginUnit) : (s.modMargin n f).egress = s.egress := rfl
@[simp] theorem modMargin_holds (n : Link) (f : MarginUnit → MarginUnit) : (s.modMargin n f).holds = s.holds := rfl
@[simp] theorem modMargin_access (n : Link) (f : MarginUnit → MarginUnit) : (s.modMargin n f).access = s.access := rfl
@[simp] theorem modMargin_clients (n : Link) (f : MarginUnit → MarginUnit) : (s.modMargin n f).clients = s.clients := rfl
@[simp] theorem modMargin_outstanding (n : Link) (f : MarginUnit → MarginUnit) : (s.modMargin n f).outstanding = s.outstanding := rfl
@[simp] theorem modMargin_rcp (n : Link) (f : MarginUnit → MarginUnit) : (s.modMargin n f).rcp = s.rcp := rfl
@[simp] theorem modMargin_port (n : Link) (f : MarginUnit → MarginUnit) (m : Link) : (s.modMargin n f).port m = s.port m := rfl
@[simp] theorem modMargin_entry (n : Link) (f : MarginUnit → MarginUnit) (m : Link) : (s.modMargin n f).entry m = s.entry m := rfl
@[simp] theorem modMargin_line (n : Link) (f : MarginUnit → MarginUnit) (m : Link) : (s.modMargin n f).line m = s.line m := rfl
@[simp] theorem modMargin_sync (n : Link) (f : MarginUnit → MarginUnit) (m : Link) : (s.modMargin n f).sync m = s.sync m := rfl
@[simp] theorem modMargin_queues (n : Link) (f : MarginUnit → MarginUnit) (m : Link) : (s.modMargin n f).queues m = s.queues m := rfl
@[simp] theorem modMargin_trig (n : Link) (f : MarginUnit → MarginUnit) (j : TrigIx) : (s.modMargin n f).trig j = s.trig j := rfl
@[simp] theorem modMargin_route (n : Link) (f : MarginUnit → MarginUnit) (j : RouteIx) : (s.modMargin n f).route j = s.route j := rfl
@[simp] theorem modMargin_slot (n : Link) (f : MarginUnit → MarginUnit) (j : SlotIx) : (s.modMargin n f).slot j = s.slot j := rfl
@[simp] theorem modMargin_client (n : Link) (f : MarginUnit → MarginUnit) (rq2 : Requester) : (s.modMargin n f).client rq2 = s.client rq2 := rfl
@[simp] theorem modMargin_counter (n : Link) (f : MarginUnit → MarginUnit) (m : Link) (d : LinkCounter) : (s.modMargin n f).counter m d = s.counter m d := rfl

/-! ### State.modLine -/

@[simp] theorem modLine_pending (n : Link) (f : LinkLines → LinkLines) : (s.modLine n f).pending = s.pending := rfl
@[simp] theorem modLine_osc (n : Link) (f : LinkLines → LinkLines) : (s.modLine n f).osc = s.osc := rfl
@[simp] theorem modLine_idleNs (n : Link) (f : LinkLines → LinkLines) : (s.modLine n f).idleNs = s.idleNs := rfl
@[simp] theorem modLine_resetAsserted (n : Link) (f : LinkLines → LinkLines) : (s.modLine n f).resetAsserted = s.resetAsserted := rfl
@[simp] theorem modLine_rack (n : Link) (f : LinkLines → LinkLines) : (s.modLine n f).rack = s.rack := rfl
@[simp] theorem modLine_frac (n : Link) (f : LinkLines → LinkLines) : (s.modLine n f).frac = s.frac := rfl
@[simp] theorem modLine_fracRem (n : Link) (f : LinkLines → LinkLines) : (s.modLine n f).fracRem = s.fracRem := rfl
@[simp] theorem modLine_tb (n : Link) (f : LinkLines → LinkLines) : (s.modLine n f).tb = s.tb := rfl
@[simp] theorem modLine_syncs (n : Link) (f : LinkLines → LinkLines) : (s.modLine n f).syncs = s.syncs := rfl
@[simp] theorem modLine_ports (n : Link) (f : LinkLines → LinkLines) : (s.modLine n f).ports = s.ports := rfl
@[simp] theorem modLine_counters (n : Link) (f : LinkLines → LinkLines) : (s.modLine n f).counters = s.counters := rfl
@[simp] theorem modLine_initDrop (n : Link) (f : LinkLines → LinkLines) : (s.modLine n f).initDrop = s.initDrop := rfl
@[simp] theorem modLine_captureOverflow (n : Link) (f : LinkLines → LinkLines) : (s.modLine n f).captureOverflow = s.captureOverflow := rfl
@[simp] theorem modLine_margins (n : Link) (f : LinkLines → LinkLines) : (s.modLine n f).margins = s.margins := rfl
@[simp] theorem modLine_roster (n : Link) (f : LinkLines → LinkLines) : (s.modLine n f).roster = s.roster := rfl
@[simp] theorem modLine_admitMinSteps (n : Link) (f : LinkLines → LinkLines) : (s.modLine n f).admitMinSteps = s.admitMinSteps := rfl
@[simp] theorem modLine_drainLimitMs (n : Link) (f : LinkLines → LinkLines) : (s.modLine n f).drainLimitMs = s.drainLimitMs := rfl
@[simp] theorem modLine_panel (n : Link) (f : LinkLines → LinkLines) : (s.modLine n f).panel = s.panel := rfl
@[simp] theorem modLine_trigs (n : Link) (f : LinkLines → LinkLines) : (s.modLine n f).trigs = s.trigs := rfl
@[simp] theorem modLine_captures (n : Link) (f : LinkLines → LinkLines) : (s.modLine n f).captures = s.captures := rfl
@[simp] theorem modLine_captureCount (n : Link) (f : LinkLines → LinkLines) : (s.modLine n f).captureCount = s.captureCount := rfl
@[simp] theorem modLine_lead (n : Link) (f : LinkLines → LinkLines) : (s.modLine n f).lead = s.lead := rfl
@[simp] theorem modLine_routes (n : Link) (f : LinkLines → LinkLines) : (s.modLine n f).routes = s.routes := rfl
@[simp] theorem modLine_writing (n : Link) (f : LinkLines → LinkLines) : (s.modLine n f).writing = s.writing := rfl
@[simp] theorem modLine_waiting (n : Link) (f : LinkLines → LinkLines) : (s.modLine n f).waiting = s.waiting := rfl
@[simp] theorem modLine_ready (n : Link) (f : LinkLines → LinkLines) : (s.modLine n f).ready = s.ready := rfl
@[simp] theorem modLine_agingEnds (n : Link) (f : LinkLines → LinkLines) : (s.modLine n f).agingEnds = s.agingEnds := rfl
@[simp] theorem modLine_agingInterval (n : Link) (f : LinkLines → LinkLines) : (s.modLine n f).agingInterval = s.agingInterval := rfl
@[simp] theorem modLine_highMark (n : Link) (f : LinkLines → LinkLines) : (s.modLine n f).highMark = s.highMark := rfl
@[simp] theorem modLine_lowMark (n : Link) (f : LinkLines → LinkLines) : (s.modLine n f).lowMark = s.lowMark := rfl
@[simp] theorem modLine_holdTime (n : Link) (f : LinkLines → LinkLines) : (s.modLine n f).holdTime = s.holdTime := rfl
@[simp] theorem modLine_pool (n : Link) (f : LinkLines → LinkLines) : (s.modLine n f).pool = s.pool := rfl
@[simp] theorem modLine_egress (n : Link) (f : LinkLines → LinkLines) : (s.modLine n f).egress = s.egress := rfl
@[simp] theorem modLine_holds (n : Link) (f : LinkLines → LinkLines) : (s.modLine n f).holds = s.holds := rfl
@[simp] theorem modLine_access (n : Link) (f : LinkLines → LinkLines) : (s.modLine n f).access = s.access := rfl
@[simp] theorem modLine_clients (n : Link) (f : LinkLines → LinkLines) : (s.modLine n f).clients = s.clients := rfl
@[simp] theorem modLine_outstanding (n : Link) (f : LinkLines → LinkLines) : (s.modLine n f).outstanding = s.outstanding := rfl
@[simp] theorem modLine_rcp (n : Link) (f : LinkLines → LinkLines) : (s.modLine n f).rcp = s.rcp := rfl
@[simp] theorem modLine_port (n : Link) (f : LinkLines → LinkLines) (m : Link) : (s.modLine n f).port m = s.port m := rfl
@[simp] theorem modLine_entry (n : Link) (f : LinkLines → LinkLines) (m : Link) : (s.modLine n f).entry m = s.entry m := rfl
@[simp] theorem modLine_margin (n : Link) (f : LinkLines → LinkLines) (m : Link) : (s.modLine n f).margin m = s.margin m := rfl
@[simp] theorem modLine_sync (n : Link) (f : LinkLines → LinkLines) (m : Link) : (s.modLine n f).sync m = s.sync m := rfl
@[simp] theorem modLine_queues (n : Link) (f : LinkLines → LinkLines) (m : Link) : (s.modLine n f).queues m = s.queues m := rfl
@[simp] theorem modLine_trig (n : Link) (f : LinkLines → LinkLines) (j : TrigIx) : (s.modLine n f).trig j = s.trig j := rfl
@[simp] theorem modLine_route (n : Link) (f : LinkLines → LinkLines) (j : RouteIx) : (s.modLine n f).route j = s.route j := rfl
@[simp] theorem modLine_slot (n : Link) (f : LinkLines → LinkLines) (j : SlotIx) : (s.modLine n f).slot j = s.slot j := rfl
@[simp] theorem modLine_client (n : Link) (f : LinkLines → LinkLines) (rq2 : Requester) : (s.modLine n f).client rq2 = s.client rq2 := rfl
@[simp] theorem modLine_counter (n : Link) (f : LinkLines → LinkLines) (m : Link) (d : LinkCounter) : (s.modLine n f).counter m d = s.counter m d := rfl

/-! ### State.modSync -/

@[simp] theorem modSync_pending (n : Link) (f : LinkSync → LinkSync) : (s.modSync n f).pending = s.pending := rfl
@[simp] theorem modSync_osc (n : Link) (f : LinkSync → LinkSync) : (s.modSync n f).osc = s.osc := rfl
@[simp] theorem modSync_idleNs (n : Link) (f : LinkSync → LinkSync) : (s.modSync n f).idleNs = s.idleNs := rfl
@[simp] theorem modSync_resetAsserted (n : Link) (f : LinkSync → LinkSync) : (s.modSync n f).resetAsserted = s.resetAsserted := rfl
@[simp] theorem modSync_rack (n : Link) (f : LinkSync → LinkSync) : (s.modSync n f).rack = s.rack := rfl
@[simp] theorem modSync_frac (n : Link) (f : LinkSync → LinkSync) : (s.modSync n f).frac = s.frac := rfl
@[simp] theorem modSync_fracRem (n : Link) (f : LinkSync → LinkSync) : (s.modSync n f).fracRem = s.fracRem := rfl
@[simp] theorem modSync_tb (n : Link) (f : LinkSync → LinkSync) : (s.modSync n f).tb = s.tb := rfl
@[simp] theorem modSync_ports (n : Link) (f : LinkSync → LinkSync) : (s.modSync n f).ports = s.ports := rfl
@[simp] theorem modSync_counters (n : Link) (f : LinkSync → LinkSync) : (s.modSync n f).counters = s.counters := rfl
@[simp] theorem modSync_initDrop (n : Link) (f : LinkSync → LinkSync) : (s.modSync n f).initDrop = s.initDrop := rfl
@[simp] theorem modSync_captureOverflow (n : Link) (f : LinkSync → LinkSync) : (s.modSync n f).captureOverflow = s.captureOverflow := rfl
@[simp] theorem modSync_margins (n : Link) (f : LinkSync → LinkSync) : (s.modSync n f).margins = s.margins := rfl
@[simp] theorem modSync_roster (n : Link) (f : LinkSync → LinkSync) : (s.modSync n f).roster = s.roster := rfl
@[simp] theorem modSync_admitMinSteps (n : Link) (f : LinkSync → LinkSync) : (s.modSync n f).admitMinSteps = s.admitMinSteps := rfl
@[simp] theorem modSync_drainLimitMs (n : Link) (f : LinkSync → LinkSync) : (s.modSync n f).drainLimitMs = s.drainLimitMs := rfl
@[simp] theorem modSync_lines (n : Link) (f : LinkSync → LinkSync) : (s.modSync n f).lines = s.lines := rfl
@[simp] theorem modSync_panel (n : Link) (f : LinkSync → LinkSync) : (s.modSync n f).panel = s.panel := rfl
@[simp] theorem modSync_trigs (n : Link) (f : LinkSync → LinkSync) : (s.modSync n f).trigs = s.trigs := rfl
@[simp] theorem modSync_captures (n : Link) (f : LinkSync → LinkSync) : (s.modSync n f).captures = s.captures := rfl
@[simp] theorem modSync_captureCount (n : Link) (f : LinkSync → LinkSync) : (s.modSync n f).captureCount = s.captureCount := rfl
@[simp] theorem modSync_lead (n : Link) (f : LinkSync → LinkSync) : (s.modSync n f).lead = s.lead := rfl
@[simp] theorem modSync_routes (n : Link) (f : LinkSync → LinkSync) : (s.modSync n f).routes = s.routes := rfl
@[simp] theorem modSync_writing (n : Link) (f : LinkSync → LinkSync) : (s.modSync n f).writing = s.writing := rfl
@[simp] theorem modSync_waiting (n : Link) (f : LinkSync → LinkSync) : (s.modSync n f).waiting = s.waiting := rfl
@[simp] theorem modSync_ready (n : Link) (f : LinkSync → LinkSync) : (s.modSync n f).ready = s.ready := rfl
@[simp] theorem modSync_agingEnds (n : Link) (f : LinkSync → LinkSync) : (s.modSync n f).agingEnds = s.agingEnds := rfl
@[simp] theorem modSync_agingInterval (n : Link) (f : LinkSync → LinkSync) : (s.modSync n f).agingInterval = s.agingInterval := rfl
@[simp] theorem modSync_highMark (n : Link) (f : LinkSync → LinkSync) : (s.modSync n f).highMark = s.highMark := rfl
@[simp] theorem modSync_lowMark (n : Link) (f : LinkSync → LinkSync) : (s.modSync n f).lowMark = s.lowMark := rfl
@[simp] theorem modSync_holdTime (n : Link) (f : LinkSync → LinkSync) : (s.modSync n f).holdTime = s.holdTime := rfl
@[simp] theorem modSync_pool (n : Link) (f : LinkSync → LinkSync) : (s.modSync n f).pool = s.pool := rfl
@[simp] theorem modSync_egress (n : Link) (f : LinkSync → LinkSync) : (s.modSync n f).egress = s.egress := rfl
@[simp] theorem modSync_holds (n : Link) (f : LinkSync → LinkSync) : (s.modSync n f).holds = s.holds := rfl
@[simp] theorem modSync_access (n : Link) (f : LinkSync → LinkSync) : (s.modSync n f).access = s.access := rfl
@[simp] theorem modSync_clients (n : Link) (f : LinkSync → LinkSync) : (s.modSync n f).clients = s.clients := rfl
@[simp] theorem modSync_outstanding (n : Link) (f : LinkSync → LinkSync) : (s.modSync n f).outstanding = s.outstanding := rfl
@[simp] theorem modSync_rcp (n : Link) (f : LinkSync → LinkSync) : (s.modSync n f).rcp = s.rcp := rfl
@[simp] theorem modSync_port (n : Link) (f : LinkSync → LinkSync) (m : Link) : (s.modSync n f).port m = s.port m := rfl
@[simp] theorem modSync_entry (n : Link) (f : LinkSync → LinkSync) (m : Link) : (s.modSync n f).entry m = s.entry m := rfl
@[simp] theorem modSync_margin (n : Link) (f : LinkSync → LinkSync) (m : Link) : (s.modSync n f).margin m = s.margin m := rfl
@[simp] theorem modSync_line (n : Link) (f : LinkSync → LinkSync) (m : Link) : (s.modSync n f).line m = s.line m := rfl
@[simp] theorem modSync_queues (n : Link) (f : LinkSync → LinkSync) (m : Link) : (s.modSync n f).queues m = s.queues m := rfl
@[simp] theorem modSync_trig (n : Link) (f : LinkSync → LinkSync) (j : TrigIx) : (s.modSync n f).trig j = s.trig j := rfl
@[simp] theorem modSync_route (n : Link) (f : LinkSync → LinkSync) (j : RouteIx) : (s.modSync n f).route j = s.route j := rfl
@[simp] theorem modSync_slot (n : Link) (f : LinkSync → LinkSync) (j : SlotIx) : (s.modSync n f).slot j = s.slot j := rfl
@[simp] theorem modSync_client (n : Link) (f : LinkSync → LinkSync) (rq2 : Requester) : (s.modSync n f).client rq2 = s.client rq2 := rfl
@[simp] theorem modSync_counter (n : Link) (f : LinkSync → LinkSync) (m : Link) (d : LinkCounter) : (s.modSync n f).counter m d = s.counter m d := rfl

/-! ### State.modQueues -/

@[simp] theorem modQueues_pending (n : Link) (f : Egress → Egress) : (s.modQueues n f).pending = s.pending := rfl
@[simp] theorem modQueues_osc (n : Link) (f : Egress → Egress) : (s.modQueues n f).osc = s.osc := rfl
@[simp] theorem modQueues_idleNs (n : Link) (f : Egress → Egress) : (s.modQueues n f).idleNs = s.idleNs := rfl
@[simp] theorem modQueues_resetAsserted (n : Link) (f : Egress → Egress) : (s.modQueues n f).resetAsserted = s.resetAsserted := rfl
@[simp] theorem modQueues_rack (n : Link) (f : Egress → Egress) : (s.modQueues n f).rack = s.rack := rfl
@[simp] theorem modQueues_frac (n : Link) (f : Egress → Egress) : (s.modQueues n f).frac = s.frac := rfl
@[simp] theorem modQueues_fracRem (n : Link) (f : Egress → Egress) : (s.modQueues n f).fracRem = s.fracRem := rfl
@[simp] theorem modQueues_tb (n : Link) (f : Egress → Egress) : (s.modQueues n f).tb = s.tb := rfl
@[simp] theorem modQueues_syncs (n : Link) (f : Egress → Egress) : (s.modQueues n f).syncs = s.syncs := rfl
@[simp] theorem modQueues_ports (n : Link) (f : Egress → Egress) : (s.modQueues n f).ports = s.ports := rfl
@[simp] theorem modQueues_counters (n : Link) (f : Egress → Egress) : (s.modQueues n f).counters = s.counters := rfl
@[simp] theorem modQueues_initDrop (n : Link) (f : Egress → Egress) : (s.modQueues n f).initDrop = s.initDrop := rfl
@[simp] theorem modQueues_captureOverflow (n : Link) (f : Egress → Egress) : (s.modQueues n f).captureOverflow = s.captureOverflow := rfl
@[simp] theorem modQueues_margins (n : Link) (f : Egress → Egress) : (s.modQueues n f).margins = s.margins := rfl
@[simp] theorem modQueues_roster (n : Link) (f : Egress → Egress) : (s.modQueues n f).roster = s.roster := rfl
@[simp] theorem modQueues_admitMinSteps (n : Link) (f : Egress → Egress) : (s.modQueues n f).admitMinSteps = s.admitMinSteps := rfl
@[simp] theorem modQueues_drainLimitMs (n : Link) (f : Egress → Egress) : (s.modQueues n f).drainLimitMs = s.drainLimitMs := rfl
@[simp] theorem modQueues_lines (n : Link) (f : Egress → Egress) : (s.modQueues n f).lines = s.lines := rfl
@[simp] theorem modQueues_panel (n : Link) (f : Egress → Egress) : (s.modQueues n f).panel = s.panel := rfl
@[simp] theorem modQueues_trigs (n : Link) (f : Egress → Egress) : (s.modQueues n f).trigs = s.trigs := rfl
@[simp] theorem modQueues_captures (n : Link) (f : Egress → Egress) : (s.modQueues n f).captures = s.captures := rfl
@[simp] theorem modQueues_captureCount (n : Link) (f : Egress → Egress) : (s.modQueues n f).captureCount = s.captureCount := rfl
@[simp] theorem modQueues_lead (n : Link) (f : Egress → Egress) : (s.modQueues n f).lead = s.lead := rfl
@[simp] theorem modQueues_routes (n : Link) (f : Egress → Egress) : (s.modQueues n f).routes = s.routes := rfl
@[simp] theorem modQueues_writing (n : Link) (f : Egress → Egress) : (s.modQueues n f).writing = s.writing := rfl
@[simp] theorem modQueues_waiting (n : Link) (f : Egress → Egress) : (s.modQueues n f).waiting = s.waiting := rfl
@[simp] theorem modQueues_ready (n : Link) (f : Egress → Egress) : (s.modQueues n f).ready = s.ready := rfl
@[simp] theorem modQueues_agingEnds (n : Link) (f : Egress → Egress) : (s.modQueues n f).agingEnds = s.agingEnds := rfl
@[simp] theorem modQueues_agingInterval (n : Link) (f : Egress → Egress) : (s.modQueues n f).agingInterval = s.agingInterval := rfl
@[simp] theorem modQueues_highMark (n : Link) (f : Egress → Egress) : (s.modQueues n f).highMark = s.highMark := rfl
@[simp] theorem modQueues_lowMark (n : Link) (f : Egress → Egress) : (s.modQueues n f).lowMark = s.lowMark := rfl
@[simp] theorem modQueues_holdTime (n : Link) (f : Egress → Egress) : (s.modQueues n f).holdTime = s.holdTime := rfl
@[simp] theorem modQueues_pool (n : Link) (f : Egress → Egress) : (s.modQueues n f).pool = s.pool := rfl
@[simp] theorem modQueues_holds (n : Link) (f : Egress → Egress) : (s.modQueues n f).holds = s.holds := rfl
@[simp] theorem modQueues_access (n : Link) (f : Egress → Egress) : (s.modQueues n f).access = s.access := rfl
@[simp] theorem modQueues_clients (n : Link) (f : Egress → Egress) : (s.modQueues n f).clients = s.clients := rfl
@[simp] theorem modQueues_outstanding (n : Link) (f : Egress → Egress) : (s.modQueues n f).outstanding = s.outstanding := rfl
@[simp] theorem modQueues_rcp (n : Link) (f : Egress → Egress) : (s.modQueues n f).rcp = s.rcp := rfl
@[simp] theorem modQueues_port (n : Link) (f : Egress → Egress) (m : Link) : (s.modQueues n f).port m = s.port m := rfl
@[simp] theorem modQueues_entry (n : Link) (f : Egress → Egress) (m : Link) : (s.modQueues n f).entry m = s.entry m := rfl
@[simp] theorem modQueues_margin (n : Link) (f : Egress → Egress) (m : Link) : (s.modQueues n f).margin m = s.margin m := rfl
@[simp] theorem modQueues_line (n : Link) (f : Egress → Egress) (m : Link) : (s.modQueues n f).line m = s.line m := rfl
@[simp] theorem modQueues_sync (n : Link) (f : Egress → Egress) (m : Link) : (s.modQueues n f).sync m = s.sync m := rfl
@[simp] theorem modQueues_trig (n : Link) (f : Egress → Egress) (j : TrigIx) : (s.modQueues n f).trig j = s.trig j := rfl
@[simp] theorem modQueues_route (n : Link) (f : Egress → Egress) (j : RouteIx) : (s.modQueues n f).route j = s.route j := rfl
@[simp] theorem modQueues_slot (n : Link) (f : Egress → Egress) (j : SlotIx) : (s.modQueues n f).slot j = s.slot j := rfl
@[simp] theorem modQueues_client (n : Link) (f : Egress → Egress) (rq2 : Requester) : (s.modQueues n f).client rq2 = s.client rq2 := rfl
@[simp] theorem modQueues_counter (n : Link) (f : Egress → Egress) (m : Link) (d : LinkCounter) : (s.modQueues n f).counter m d = s.counter m d := rfl

/-! ### State.modTrig -/

@[simp] theorem modTrig_pending (i : TrigIx) (f : TrigEntry → TrigEntry) : (s.modTrig i f).pending = s.pending := rfl
@[simp] theorem modTrig_osc (i : TrigIx) (f : TrigEntry → TrigEntry) : (s.modTrig i f).osc = s.osc := rfl
@[simp] theorem modTrig_idleNs (i : TrigIx) (f : TrigEntry → TrigEntry) : (s.modTrig i f).idleNs = s.idleNs := rfl
@[simp] theorem modTrig_resetAsserted (i : TrigIx) (f : TrigEntry → TrigEntry) : (s.modTrig i f).resetAsserted = s.resetAsserted := rfl
@[simp] theorem modTrig_rack (i : TrigIx) (f : TrigEntry → TrigEntry) : (s.modTrig i f).rack = s.rack := rfl
@[simp] theorem modTrig_frac (i : TrigIx) (f : TrigEntry → TrigEntry) : (s.modTrig i f).frac = s.frac := rfl
@[simp] theorem modTrig_fracRem (i : TrigIx) (f : TrigEntry → TrigEntry) : (s.modTrig i f).fracRem = s.fracRem := rfl
@[simp] theorem modTrig_tb (i : TrigIx) (f : TrigEntry → TrigEntry) : (s.modTrig i f).tb = s.tb := rfl
@[simp] theorem modTrig_syncs (i : TrigIx) (f : TrigEntry → TrigEntry) : (s.modTrig i f).syncs = s.syncs := rfl
@[simp] theorem modTrig_ports (i : TrigIx) (f : TrigEntry → TrigEntry) : (s.modTrig i f).ports = s.ports := rfl
@[simp] theorem modTrig_counters (i : TrigIx) (f : TrigEntry → TrigEntry) : (s.modTrig i f).counters = s.counters := rfl
@[simp] theorem modTrig_initDrop (i : TrigIx) (f : TrigEntry → TrigEntry) : (s.modTrig i f).initDrop = s.initDrop := rfl
@[simp] theorem modTrig_captureOverflow (i : TrigIx) (f : TrigEntry → TrigEntry) : (s.modTrig i f).captureOverflow = s.captureOverflow := rfl
@[simp] theorem modTrig_margins (i : TrigIx) (f : TrigEntry → TrigEntry) : (s.modTrig i f).margins = s.margins := rfl
@[simp] theorem modTrig_roster (i : TrigIx) (f : TrigEntry → TrigEntry) : (s.modTrig i f).roster = s.roster := rfl
@[simp] theorem modTrig_admitMinSteps (i : TrigIx) (f : TrigEntry → TrigEntry) : (s.modTrig i f).admitMinSteps = s.admitMinSteps := rfl
@[simp] theorem modTrig_drainLimitMs (i : TrigIx) (f : TrigEntry → TrigEntry) : (s.modTrig i f).drainLimitMs = s.drainLimitMs := rfl
@[simp] theorem modTrig_lines (i : TrigIx) (f : TrigEntry → TrigEntry) : (s.modTrig i f).lines = s.lines := rfl
@[simp] theorem modTrig_panel (i : TrigIx) (f : TrigEntry → TrigEntry) : (s.modTrig i f).panel = s.panel := rfl
@[simp] theorem modTrig_captures (i : TrigIx) (f : TrigEntry → TrigEntry) : (s.modTrig i f).captures = s.captures := rfl
@[simp] theorem modTrig_captureCount (i : TrigIx) (f : TrigEntry → TrigEntry) : (s.modTrig i f).captureCount = s.captureCount := rfl
@[simp] theorem modTrig_lead (i : TrigIx) (f : TrigEntry → TrigEntry) : (s.modTrig i f).lead = s.lead := rfl
@[simp] theorem modTrig_routes (i : TrigIx) (f : TrigEntry → TrigEntry) : (s.modTrig i f).routes = s.routes := rfl
@[simp] theorem modTrig_writing (i : TrigIx) (f : TrigEntry → TrigEntry) : (s.modTrig i f).writing = s.writing := rfl
@[simp] theorem modTrig_waiting (i : TrigIx) (f : TrigEntry → TrigEntry) : (s.modTrig i f).waiting = s.waiting := rfl
@[simp] theorem modTrig_ready (i : TrigIx) (f : TrigEntry → TrigEntry) : (s.modTrig i f).ready = s.ready := rfl
@[simp] theorem modTrig_agingEnds (i : TrigIx) (f : TrigEntry → TrigEntry) : (s.modTrig i f).agingEnds = s.agingEnds := rfl
@[simp] theorem modTrig_agingInterval (i : TrigIx) (f : TrigEntry → TrigEntry) : (s.modTrig i f).agingInterval = s.agingInterval := rfl
@[simp] theorem modTrig_highMark (i : TrigIx) (f : TrigEntry → TrigEntry) : (s.modTrig i f).highMark = s.highMark := rfl
@[simp] theorem modTrig_lowMark (i : TrigIx) (f : TrigEntry → TrigEntry) : (s.modTrig i f).lowMark = s.lowMark := rfl
@[simp] theorem modTrig_holdTime (i : TrigIx) (f : TrigEntry → TrigEntry) : (s.modTrig i f).holdTime = s.holdTime := rfl
@[simp] theorem modTrig_pool (i : TrigIx) (f : TrigEntry → TrigEntry) : (s.modTrig i f).pool = s.pool := rfl
@[simp] theorem modTrig_egress (i : TrigIx) (f : TrigEntry → TrigEntry) : (s.modTrig i f).egress = s.egress := rfl
@[simp] theorem modTrig_holds (i : TrigIx) (f : TrigEntry → TrigEntry) : (s.modTrig i f).holds = s.holds := rfl
@[simp] theorem modTrig_access (i : TrigIx) (f : TrigEntry → TrigEntry) : (s.modTrig i f).access = s.access := rfl
@[simp] theorem modTrig_clients (i : TrigIx) (f : TrigEntry → TrigEntry) : (s.modTrig i f).clients = s.clients := rfl
@[simp] theorem modTrig_outstanding (i : TrigIx) (f : TrigEntry → TrigEntry) : (s.modTrig i f).outstanding = s.outstanding := rfl
@[simp] theorem modTrig_rcp (i : TrigIx) (f : TrigEntry → TrigEntry) : (s.modTrig i f).rcp = s.rcp := rfl
@[simp] theorem modTrig_port (i : TrigIx) (f : TrigEntry → TrigEntry) (m : Link) : (s.modTrig i f).port m = s.port m := rfl
@[simp] theorem modTrig_entry (i : TrigIx) (f : TrigEntry → TrigEntry) (m : Link) : (s.modTrig i f).entry m = s.entry m := rfl
@[simp] theorem modTrig_margin (i : TrigIx) (f : TrigEntry → TrigEntry) (m : Link) : (s.modTrig i f).margin m = s.margin m := rfl
@[simp] theorem modTrig_line (i : TrigIx) (f : TrigEntry → TrigEntry) (m : Link) : (s.modTrig i f).line m = s.line m := rfl
@[simp] theorem modTrig_sync (i : TrigIx) (f : TrigEntry → TrigEntry) (m : Link) : (s.modTrig i f).sync m = s.sync m := rfl
@[simp] theorem modTrig_queues (i : TrigIx) (f : TrigEntry → TrigEntry) (m : Link) : (s.modTrig i f).queues m = s.queues m := rfl
@[simp] theorem modTrig_route (i : TrigIx) (f : TrigEntry → TrigEntry) (j : RouteIx) : (s.modTrig i f).route j = s.route j := rfl
@[simp] theorem modTrig_slot (i : TrigIx) (f : TrigEntry → TrigEntry) (j : SlotIx) : (s.modTrig i f).slot j = s.slot j := rfl
@[simp] theorem modTrig_client (i : TrigIx) (f : TrigEntry → TrigEntry) (rq2 : Requester) : (s.modTrig i f).client rq2 = s.client rq2 := rfl
@[simp] theorem modTrig_counter (i : TrigIx) (f : TrigEntry → TrigEntry) (m : Link) (d : LinkCounter) : (s.modTrig i f).counter m d = s.counter m d := rfl

/-! ### State.setRoute -/

@[simp] theorem setRoute_pending (i : RouteIx) (r : Option Route) : (s.setRoute i r).pending = s.pending := rfl
@[simp] theorem setRoute_osc (i : RouteIx) (r : Option Route) : (s.setRoute i r).osc = s.osc := rfl
@[simp] theorem setRoute_idleNs (i : RouteIx) (r : Option Route) : (s.setRoute i r).idleNs = s.idleNs := rfl
@[simp] theorem setRoute_resetAsserted (i : RouteIx) (r : Option Route) : (s.setRoute i r).resetAsserted = s.resetAsserted := rfl
@[simp] theorem setRoute_rack (i : RouteIx) (r : Option Route) : (s.setRoute i r).rack = s.rack := rfl
@[simp] theorem setRoute_frac (i : RouteIx) (r : Option Route) : (s.setRoute i r).frac = s.frac := rfl
@[simp] theorem setRoute_fracRem (i : RouteIx) (r : Option Route) : (s.setRoute i r).fracRem = s.fracRem := rfl
@[simp] theorem setRoute_tb (i : RouteIx) (r : Option Route) : (s.setRoute i r).tb = s.tb := rfl
@[simp] theorem setRoute_syncs (i : RouteIx) (r : Option Route) : (s.setRoute i r).syncs = s.syncs := rfl
@[simp] theorem setRoute_ports (i : RouteIx) (r : Option Route) : (s.setRoute i r).ports = s.ports := rfl
@[simp] theorem setRoute_counters (i : RouteIx) (r : Option Route) : (s.setRoute i r).counters = s.counters := rfl
@[simp] theorem setRoute_initDrop (i : RouteIx) (r : Option Route) : (s.setRoute i r).initDrop = s.initDrop := rfl
@[simp] theorem setRoute_captureOverflow (i : RouteIx) (r : Option Route) : (s.setRoute i r).captureOverflow = s.captureOverflow := rfl
@[simp] theorem setRoute_margins (i : RouteIx) (r : Option Route) : (s.setRoute i r).margins = s.margins := rfl
@[simp] theorem setRoute_roster (i : RouteIx) (r : Option Route) : (s.setRoute i r).roster = s.roster := rfl
@[simp] theorem setRoute_admitMinSteps (i : RouteIx) (r : Option Route) : (s.setRoute i r).admitMinSteps = s.admitMinSteps := rfl
@[simp] theorem setRoute_drainLimitMs (i : RouteIx) (r : Option Route) : (s.setRoute i r).drainLimitMs = s.drainLimitMs := rfl
@[simp] theorem setRoute_lines (i : RouteIx) (r : Option Route) : (s.setRoute i r).lines = s.lines := rfl
@[simp] theorem setRoute_panel (i : RouteIx) (r : Option Route) : (s.setRoute i r).panel = s.panel := rfl
@[simp] theorem setRoute_trigs (i : RouteIx) (r : Option Route) : (s.setRoute i r).trigs = s.trigs := rfl
@[simp] theorem setRoute_captures (i : RouteIx) (r : Option Route) : (s.setRoute i r).captures = s.captures := rfl
@[simp] theorem setRoute_captureCount (i : RouteIx) (r : Option Route) : (s.setRoute i r).captureCount = s.captureCount := rfl
@[simp] theorem setRoute_lead (i : RouteIx) (r : Option Route) : (s.setRoute i r).lead = s.lead := rfl
@[simp] theorem setRoute_writing (i : RouteIx) (r : Option Route) : (s.setRoute i r).writing = s.writing := rfl
@[simp] theorem setRoute_waiting (i : RouteIx) (r : Option Route) : (s.setRoute i r).waiting = s.waiting := rfl
@[simp] theorem setRoute_ready (i : RouteIx) (r : Option Route) : (s.setRoute i r).ready = s.ready := rfl
@[simp] theorem setRoute_agingEnds (i : RouteIx) (r : Option Route) : (s.setRoute i r).agingEnds = s.agingEnds := rfl
@[simp] theorem setRoute_agingInterval (i : RouteIx) (r : Option Route) : (s.setRoute i r).agingInterval = s.agingInterval := rfl
@[simp] theorem setRoute_highMark (i : RouteIx) (r : Option Route) : (s.setRoute i r).highMark = s.highMark := rfl
@[simp] theorem setRoute_lowMark (i : RouteIx) (r : Option Route) : (s.setRoute i r).lowMark = s.lowMark := rfl
@[simp] theorem setRoute_holdTime (i : RouteIx) (r : Option Route) : (s.setRoute i r).holdTime = s.holdTime := rfl
@[simp] theorem setRoute_pool (i : RouteIx) (r : Option Route) : (s.setRoute i r).pool = s.pool := rfl
@[simp] theorem setRoute_egress (i : RouteIx) (r : Option Route) : (s.setRoute i r).egress = s.egress := rfl
@[simp] theorem setRoute_holds (i : RouteIx) (r : Option Route) : (s.setRoute i r).holds = s.holds := rfl
@[simp] theorem setRoute_access (i : RouteIx) (r : Option Route) : (s.setRoute i r).access = s.access := rfl
@[simp] theorem setRoute_clients (i : RouteIx) (r : Option Route) : (s.setRoute i r).clients = s.clients := rfl
@[simp] theorem setRoute_outstanding (i : RouteIx) (r : Option Route) : (s.setRoute i r).outstanding = s.outstanding := rfl
@[simp] theorem setRoute_rcp (i : RouteIx) (r : Option Route) : (s.setRoute i r).rcp = s.rcp := rfl
@[simp] theorem setRoute_port (i : RouteIx) (r : Option Route) (m : Link) : (s.setRoute i r).port m = s.port m := rfl
@[simp] theorem setRoute_entry (i : RouteIx) (r : Option Route) (m : Link) : (s.setRoute i r).entry m = s.entry m := rfl
@[simp] theorem setRoute_margin (i : RouteIx) (r : Option Route) (m : Link) : (s.setRoute i r).margin m = s.margin m := rfl
@[simp] theorem setRoute_line (i : RouteIx) (r : Option Route) (m : Link) : (s.setRoute i r).line m = s.line m := rfl
@[simp] theorem setRoute_sync (i : RouteIx) (r : Option Route) (m : Link) : (s.setRoute i r).sync m = s.sync m := rfl
@[simp] theorem setRoute_queues (i : RouteIx) (r : Option Route) (m : Link) : (s.setRoute i r).queues m = s.queues m := rfl
@[simp] theorem setRoute_trig (i : RouteIx) (r : Option Route) (j : TrigIx) : (s.setRoute i r).trig j = s.trig j := rfl
@[simp] theorem setRoute_slot (i : RouteIx) (r : Option Route) (j : SlotIx) : (s.setRoute i r).slot j = s.slot j := rfl
@[simp] theorem setRoute_client (i : RouteIx) (r : Option Route) (rq2 : Requester) : (s.setRoute i r).client rq2 = s.client rq2 := rfl
@[simp] theorem setRoute_counter (i : RouteIx) (r : Option Route) (m : Link) (d : LinkCounter) : (s.setRoute i r).counter m d = s.counter m d := rfl

/-! ### State.setSlot -/

@[simp] theorem setSlot_pending (i : SlotIx) (sl : Option Slot) : (s.setSlot i sl).pending = s.pending := rfl
@[simp] theorem setSlot_osc (i : SlotIx) (sl : Option Slot) : (s.setSlot i sl).osc = s.osc := rfl
@[simp] theorem setSlot_idleNs (i : SlotIx) (sl : Option Slot) : (s.setSlot i sl).idleNs = s.idleNs := rfl
@[simp] theorem setSlot_resetAsserted (i : SlotIx) (sl : Option Slot) : (s.setSlot i sl).resetAsserted = s.resetAsserted := rfl
@[simp] theorem setSlot_rack (i : SlotIx) (sl : Option Slot) : (s.setSlot i sl).rack = s.rack := rfl
@[simp] theorem setSlot_frac (i : SlotIx) (sl : Option Slot) : (s.setSlot i sl).frac = s.frac := rfl
@[simp] theorem setSlot_fracRem (i : SlotIx) (sl : Option Slot) : (s.setSlot i sl).fracRem = s.fracRem := rfl
@[simp] theorem setSlot_tb (i : SlotIx) (sl : Option Slot) : (s.setSlot i sl).tb = s.tb := rfl
@[simp] theorem setSlot_syncs (i : SlotIx) (sl : Option Slot) : (s.setSlot i sl).syncs = s.syncs := rfl
@[simp] theorem setSlot_ports (i : SlotIx) (sl : Option Slot) : (s.setSlot i sl).ports = s.ports := rfl
@[simp] theorem setSlot_counters (i : SlotIx) (sl : Option Slot) : (s.setSlot i sl).counters = s.counters := rfl
@[simp] theorem setSlot_initDrop (i : SlotIx) (sl : Option Slot) : (s.setSlot i sl).initDrop = s.initDrop := rfl
@[simp] theorem setSlot_captureOverflow (i : SlotIx) (sl : Option Slot) : (s.setSlot i sl).captureOverflow = s.captureOverflow := rfl
@[simp] theorem setSlot_margins (i : SlotIx) (sl : Option Slot) : (s.setSlot i sl).margins = s.margins := rfl
@[simp] theorem setSlot_roster (i : SlotIx) (sl : Option Slot) : (s.setSlot i sl).roster = s.roster := rfl
@[simp] theorem setSlot_admitMinSteps (i : SlotIx) (sl : Option Slot) : (s.setSlot i sl).admitMinSteps = s.admitMinSteps := rfl
@[simp] theorem setSlot_drainLimitMs (i : SlotIx) (sl : Option Slot) : (s.setSlot i sl).drainLimitMs = s.drainLimitMs := rfl
@[simp] theorem setSlot_lines (i : SlotIx) (sl : Option Slot) : (s.setSlot i sl).lines = s.lines := rfl
@[simp] theorem setSlot_panel (i : SlotIx) (sl : Option Slot) : (s.setSlot i sl).panel = s.panel := rfl
@[simp] theorem setSlot_trigs (i : SlotIx) (sl : Option Slot) : (s.setSlot i sl).trigs = s.trigs := rfl
@[simp] theorem setSlot_captures (i : SlotIx) (sl : Option Slot) : (s.setSlot i sl).captures = s.captures := rfl
@[simp] theorem setSlot_captureCount (i : SlotIx) (sl : Option Slot) : (s.setSlot i sl).captureCount = s.captureCount := rfl
@[simp] theorem setSlot_lead (i : SlotIx) (sl : Option Slot) : (s.setSlot i sl).lead = s.lead := rfl
@[simp] theorem setSlot_routes (i : SlotIx) (sl : Option Slot) : (s.setSlot i sl).routes = s.routes := rfl
@[simp] theorem setSlot_writing (i : SlotIx) (sl : Option Slot) : (s.setSlot i sl).writing = s.writing := rfl
@[simp] theorem setSlot_waiting (i : SlotIx) (sl : Option Slot) : (s.setSlot i sl).waiting = s.waiting := rfl
@[simp] theorem setSlot_ready (i : SlotIx) (sl : Option Slot) : (s.setSlot i sl).ready = s.ready := rfl
@[simp] theorem setSlot_agingEnds (i : SlotIx) (sl : Option Slot) : (s.setSlot i sl).agingEnds = s.agingEnds := rfl
@[simp] theorem setSlot_agingInterval (i : SlotIx) (sl : Option Slot) : (s.setSlot i sl).agingInterval = s.agingInterval := rfl
@[simp] theorem setSlot_highMark (i : SlotIx) (sl : Option Slot) : (s.setSlot i sl).highMark = s.highMark := rfl
@[simp] theorem setSlot_lowMark (i : SlotIx) (sl : Option Slot) : (s.setSlot i sl).lowMark = s.lowMark := rfl
@[simp] theorem setSlot_holdTime (i : SlotIx) (sl : Option Slot) : (s.setSlot i sl).holdTime = s.holdTime := rfl
@[simp] theorem setSlot_egress (i : SlotIx) (sl : Option Slot) : (s.setSlot i sl).egress = s.egress := rfl
@[simp] theorem setSlot_holds (i : SlotIx) (sl : Option Slot) : (s.setSlot i sl).holds = s.holds := rfl
@[simp] theorem setSlot_access (i : SlotIx) (sl : Option Slot) : (s.setSlot i sl).access = s.access := rfl
@[simp] theorem setSlot_clients (i : SlotIx) (sl : Option Slot) : (s.setSlot i sl).clients = s.clients := rfl
@[simp] theorem setSlot_outstanding (i : SlotIx) (sl : Option Slot) : (s.setSlot i sl).outstanding = s.outstanding := rfl
@[simp] theorem setSlot_rcp (i : SlotIx) (sl : Option Slot) : (s.setSlot i sl).rcp = s.rcp := rfl
@[simp] theorem setSlot_port (i : SlotIx) (sl : Option Slot) (m : Link) : (s.setSlot i sl).port m = s.port m := rfl
@[simp] theorem setSlot_entry (i : SlotIx) (sl : Option Slot) (m : Link) : (s.setSlot i sl).entry m = s.entry m := rfl
@[simp] theorem setSlot_margin (i : SlotIx) (sl : Option Slot) (m : Link) : (s.setSlot i sl).margin m = s.margin m := rfl
@[simp] theorem setSlot_line (i : SlotIx) (sl : Option Slot) (m : Link) : (s.setSlot i sl).line m = s.line m := rfl
@[simp] theorem setSlot_sync (i : SlotIx) (sl : Option Slot) (m : Link) : (s.setSlot i sl).sync m = s.sync m := rfl
@[simp] theorem setSlot_queues (i : SlotIx) (sl : Option Slot) (m : Link) : (s.setSlot i sl).queues m = s.queues m := rfl
@[simp] theorem setSlot_trig (i : SlotIx) (sl : Option Slot) (j : TrigIx) : (s.setSlot i sl).trig j = s.trig j := rfl
@[simp] theorem setSlot_route (i : SlotIx) (sl : Option Slot) (j : RouteIx) : (s.setSlot i sl).route j = s.route j := rfl
@[simp] theorem setSlot_client (i : SlotIx) (sl : Option Slot) (rq2 : Requester) : (s.setSlot i sl).client rq2 = s.client rq2 := rfl
@[simp] theorem setSlot_counter (i : SlotIx) (sl : Option Slot) (m : Link) (d : LinkCounter) : (s.setSlot i sl).counter m d = s.counter m d := rfl

/-! ### State.modClient -/

@[simp] theorem modClient_pending (rq : Requester) (f : Client → Client) : (s.modClient rq f).pending = s.pending := rfl
@[simp] theorem modClient_osc (rq : Requester) (f : Client → Client) : (s.modClient rq f).osc = s.osc := rfl
@[simp] theorem modClient_idleNs (rq : Requester) (f : Client → Client) : (s.modClient rq f).idleNs = s.idleNs := rfl
@[simp] theorem modClient_resetAsserted (rq : Requester) (f : Client → Client) : (s.modClient rq f).resetAsserted = s.resetAsserted := rfl
@[simp] theorem modClient_rack (rq : Requester) (f : Client → Client) : (s.modClient rq f).rack = s.rack := rfl
@[simp] theorem modClient_frac (rq : Requester) (f : Client → Client) : (s.modClient rq f).frac = s.frac := rfl
@[simp] theorem modClient_fracRem (rq : Requester) (f : Client → Client) : (s.modClient rq f).fracRem = s.fracRem := rfl
@[simp] theorem modClient_tb (rq : Requester) (f : Client → Client) : (s.modClient rq f).tb = s.tb := rfl
@[simp] theorem modClient_syncs (rq : Requester) (f : Client → Client) : (s.modClient rq f).syncs = s.syncs := rfl
@[simp] theorem modClient_ports (rq : Requester) (f : Client → Client) : (s.modClient rq f).ports = s.ports := rfl
@[simp] theorem modClient_counters (rq : Requester) (f : Client → Client) : (s.modClient rq f).counters = s.counters := rfl
@[simp] theorem modClient_initDrop (rq : Requester) (f : Client → Client) : (s.modClient rq f).initDrop = s.initDrop := rfl
@[simp] theorem modClient_captureOverflow (rq : Requester) (f : Client → Client) : (s.modClient rq f).captureOverflow = s.captureOverflow := rfl
@[simp] theorem modClient_margins (rq : Requester) (f : Client → Client) : (s.modClient rq f).margins = s.margins := rfl
@[simp] theorem modClient_roster (rq : Requester) (f : Client → Client) : (s.modClient rq f).roster = s.roster := rfl
@[simp] theorem modClient_admitMinSteps (rq : Requester) (f : Client → Client) : (s.modClient rq f).admitMinSteps = s.admitMinSteps := rfl
@[simp] theorem modClient_drainLimitMs (rq : Requester) (f : Client → Client) : (s.modClient rq f).drainLimitMs = s.drainLimitMs := rfl
@[simp] theorem modClient_lines (rq : Requester) (f : Client → Client) : (s.modClient rq f).lines = s.lines := rfl
@[simp] theorem modClient_panel (rq : Requester) (f : Client → Client) : (s.modClient rq f).panel = s.panel := rfl
@[simp] theorem modClient_trigs (rq : Requester) (f : Client → Client) : (s.modClient rq f).trigs = s.trigs := rfl
@[simp] theorem modClient_captures (rq : Requester) (f : Client → Client) : (s.modClient rq f).captures = s.captures := rfl
@[simp] theorem modClient_captureCount (rq : Requester) (f : Client → Client) : (s.modClient rq f).captureCount = s.captureCount := rfl
@[simp] theorem modClient_lead (rq : Requester) (f : Client → Client) : (s.modClient rq f).lead = s.lead := rfl
@[simp] theorem modClient_routes (rq : Requester) (f : Client → Client) : (s.modClient rq f).routes = s.routes := rfl
@[simp] theorem modClient_writing (rq : Requester) (f : Client → Client) : (s.modClient rq f).writing = s.writing := rfl
@[simp] theorem modClient_waiting (rq : Requester) (f : Client → Client) : (s.modClient rq f).waiting = s.waiting := rfl
@[simp] theorem modClient_ready (rq : Requester) (f : Client → Client) : (s.modClient rq f).ready = s.ready := rfl
@[simp] theorem modClient_agingEnds (rq : Requester) (f : Client → Client) : (s.modClient rq f).agingEnds = s.agingEnds := rfl
@[simp] theorem modClient_agingInterval (rq : Requester) (f : Client → Client) : (s.modClient rq f).agingInterval = s.agingInterval := rfl
@[simp] theorem modClient_highMark (rq : Requester) (f : Client → Client) : (s.modClient rq f).highMark = s.highMark := rfl
@[simp] theorem modClient_lowMark (rq : Requester) (f : Client → Client) : (s.modClient rq f).lowMark = s.lowMark := rfl
@[simp] theorem modClient_holdTime (rq : Requester) (f : Client → Client) : (s.modClient rq f).holdTime = s.holdTime := rfl
@[simp] theorem modClient_pool (rq : Requester) (f : Client → Client) : (s.modClient rq f).pool = s.pool := rfl
@[simp] theorem modClient_egress (rq : Requester) (f : Client → Client) : (s.modClient rq f).egress = s.egress := rfl
@[simp] theorem modClient_holds (rq : Requester) (f : Client → Client) : (s.modClient rq f).holds = s.holds := rfl
@[simp] theorem modClient_access (rq : Requester) (f : Client → Client) : (s.modClient rq f).access = s.access := rfl
@[simp] theorem modClient_outstanding (rq : Requester) (f : Client → Client) : (s.modClient rq f).outstanding = s.outstanding := rfl
@[simp] theorem modClient_rcp (rq : Requester) (f : Client → Client) : (s.modClient rq f).rcp = s.rcp := rfl
@[simp] theorem modClient_port (rq : Requester) (f : Client → Client) (m : Link) : (s.modClient rq f).port m = s.port m := rfl
@[simp] theorem modClient_entry (rq : Requester) (f : Client → Client) (m : Link) : (s.modClient rq f).entry m = s.entry m := rfl
@[simp] theorem modClient_margin (rq : Requester) (f : Client → Client) (m : Link) : (s.modClient rq f).margin m = s.margin m := rfl
@[simp] theorem modClient_line (rq : Requester) (f : Client → Client) (m : Link) : (s.modClient rq f).line m = s.line m := rfl
@[simp] theorem modClient_sync (rq : Requester) (f : Client → Client) (m : Link) : (s.modClient rq f).sync m = s.sync m := rfl
@[simp] theorem modClient_queues (rq : Requester) (f : Client → Client) (m : Link) : (s.modClient rq f).queues m = s.queues m := rfl
@[simp] theorem modClient_trig (rq : Requester) (f : Client → Client) (j : TrigIx) : (s.modClient rq f).trig j = s.trig j := rfl
@[simp] theorem modClient_route (rq : Requester) (f : Client → Client) (j : RouteIx) : (s.modClient rq f).route j = s.route j := rfl
@[simp] theorem modClient_slot (rq : Requester) (f : Client → Client) (j : SlotIx) : (s.modClient rq f).slot j = s.slot j := rfl
@[simp] theorem modClient_counter (rq : Requester) (f : Client → Client) (m : Link) (d : LinkCounter) : (s.modClient rq f).counter m d = s.counter m d := rfl

/-! ### State.setOutstanding -/

@[simp] theorem setOutstanding_pending (n : Link) (b : Bool) : (s.setOutstanding n b).pending = s.pending := rfl
@[simp] theorem setOutstanding_osc (n : Link) (b : Bool) : (s.setOutstanding n b).osc = s.osc := rfl
@[simp] theorem setOutstanding_idleNs (n : Link) (b : Bool) : (s.setOutstanding n b).idleNs = s.idleNs := rfl
@[simp] theorem setOutstanding_resetAsserted (n : Link) (b : Bool) : (s.setOutstanding n b).resetAsserted = s.resetAsserted := rfl
@[simp] theorem setOutstanding_rack (n : Link) (b : Bool) : (s.setOutstanding n b).rack = s.rack := rfl
@[simp] theorem setOutstanding_frac (n : Link) (b : Bool) : (s.setOutstanding n b).frac = s.frac := rfl
@[simp] theorem setOutstanding_fracRem (n : Link) (b : Bool) : (s.setOutstanding n b).fracRem = s.fracRem := rfl
@[simp] theorem setOutstanding_tb (n : Link) (b : Bool) : (s.setOutstanding n b).tb = s.tb := rfl
@[simp] theorem setOutstanding_syncs (n : Link) (b : Bool) : (s.setOutstanding n b).syncs = s.syncs := rfl
@[simp] theorem setOutstanding_ports (n : Link) (b : Bool) : (s.setOutstanding n b).ports = s.ports := rfl
@[simp] theorem setOutstanding_counters (n : Link) (b : Bool) : (s.setOutstanding n b).counters = s.counters := rfl
@[simp] theorem setOutstanding_initDrop (n : Link) (b : Bool) : (s.setOutstanding n b).initDrop = s.initDrop := rfl
@[simp] theorem setOutstanding_captureOverflow (n : Link) (b : Bool) : (s.setOutstanding n b).captureOverflow = s.captureOverflow := rfl
@[simp] theorem setOutstanding_margins (n : Link) (b : Bool) : (s.setOutstanding n b).margins = s.margins := rfl
@[simp] theorem setOutstanding_roster (n : Link) (b : Bool) : (s.setOutstanding n b).roster = s.roster := rfl
@[simp] theorem setOutstanding_admitMinSteps (n : Link) (b : Bool) : (s.setOutstanding n b).admitMinSteps = s.admitMinSteps := rfl
@[simp] theorem setOutstanding_drainLimitMs (n : Link) (b : Bool) : (s.setOutstanding n b).drainLimitMs = s.drainLimitMs := rfl
@[simp] theorem setOutstanding_lines (n : Link) (b : Bool) : (s.setOutstanding n b).lines = s.lines := rfl
@[simp] theorem setOutstanding_panel (n : Link) (b : Bool) : (s.setOutstanding n b).panel = s.panel := rfl
@[simp] theorem setOutstanding_trigs (n : Link) (b : Bool) : (s.setOutstanding n b).trigs = s.trigs := rfl
@[simp] theorem setOutstanding_captures (n : Link) (b : Bool) : (s.setOutstanding n b).captures = s.captures := rfl
@[simp] theorem setOutstanding_captureCount (n : Link) (b : Bool) : (s.setOutstanding n b).captureCount = s.captureCount := rfl
@[simp] theorem setOutstanding_lead (n : Link) (b : Bool) : (s.setOutstanding n b).lead = s.lead := rfl
@[simp] theorem setOutstanding_routes (n : Link) (b : Bool) : (s.setOutstanding n b).routes = s.routes := rfl
@[simp] theorem setOutstanding_writing (n : Link) (b : Bool) : (s.setOutstanding n b).writing = s.writing := rfl
@[simp] theorem setOutstanding_waiting (n : Link) (b : Bool) : (s.setOutstanding n b).waiting = s.waiting := rfl
@[simp] theorem setOutstanding_ready (n : Link) (b : Bool) : (s.setOutstanding n b).ready = s.ready := rfl
@[simp] theorem setOutstanding_agingEnds (n : Link) (b : Bool) : (s.setOutstanding n b).agingEnds = s.agingEnds := rfl
@[simp] theorem setOutstanding_agingInterval (n : Link) (b : Bool) : (s.setOutstanding n b).agingInterval = s.agingInterval := rfl
@[simp] theorem setOutstanding_highMark (n : Link) (b : Bool) : (s.setOutstanding n b).highMark = s.highMark := rfl
@[simp] theorem setOutstanding_lowMark (n : Link) (b : Bool) : (s.setOutstanding n b).lowMark = s.lowMark := rfl
@[simp] theorem setOutstanding_holdTime (n : Link) (b : Bool) : (s.setOutstanding n b).holdTime = s.holdTime := rfl
@[simp] theorem setOutstanding_pool (n : Link) (b : Bool) : (s.setOutstanding n b).pool = s.pool := rfl
@[simp] theorem setOutstanding_egress (n : Link) (b : Bool) : (s.setOutstanding n b).egress = s.egress := rfl
@[simp] theorem setOutstanding_holds (n : Link) (b : Bool) : (s.setOutstanding n b).holds = s.holds := rfl
@[simp] theorem setOutstanding_access (n : Link) (b : Bool) : (s.setOutstanding n b).access = s.access := rfl
@[simp] theorem setOutstanding_clients (n : Link) (b : Bool) : (s.setOutstanding n b).clients = s.clients := rfl
@[simp] theorem setOutstanding_rcp (n : Link) (b : Bool) : (s.setOutstanding n b).rcp = s.rcp := rfl
@[simp] theorem setOutstanding_port (n : Link) (b : Bool) (m : Link) : (s.setOutstanding n b).port m = s.port m := rfl
@[simp] theorem setOutstanding_entry (n : Link) (b : Bool) (m : Link) : (s.setOutstanding n b).entry m = s.entry m := rfl
@[simp] theorem setOutstanding_margin (n : Link) (b : Bool) (m : Link) : (s.setOutstanding n b).margin m = s.margin m := rfl
@[simp] theorem setOutstanding_line (n : Link) (b : Bool) (m : Link) : (s.setOutstanding n b).line m = s.line m := rfl
@[simp] theorem setOutstanding_sync (n : Link) (b : Bool) (m : Link) : (s.setOutstanding n b).sync m = s.sync m := rfl
@[simp] theorem setOutstanding_queues (n : Link) (b : Bool) (m : Link) : (s.setOutstanding n b).queues m = s.queues m := rfl
@[simp] theorem setOutstanding_trig (n : Link) (b : Bool) (j : TrigIx) : (s.setOutstanding n b).trig j = s.trig j := rfl
@[simp] theorem setOutstanding_route (n : Link) (b : Bool) (j : RouteIx) : (s.setOutstanding n b).route j = s.route j := rfl
@[simp] theorem setOutstanding_slot (n : Link) (b : Bool) (j : SlotIx) : (s.setOutstanding n b).slot j = s.slot j := rfl
@[simp] theorem setOutstanding_client (n : Link) (b : Bool) (rq2 : Requester) : (s.setOutstanding n b).client rq2 = s.client rq2 := rfl
@[simp] theorem setOutstanding_counter (n : Link) (b : Bool) (m : Link) (d : LinkCounter) : (s.setOutstanding n b).counter m d = s.counter m d := rfl

/-! ### State.modTb -/

@[simp] theorem modTb_pending (f : Timebase → Timebase) : (s.modTb f).pending = s.pending := rfl
@[simp] theorem modTb_osc (f : Timebase → Timebase) : (s.modTb f).osc = s.osc := rfl
@[simp] theorem modTb_idleNs (f : Timebase → Timebase) : (s.modTb f).idleNs = s.idleNs := rfl
@[simp] theorem modTb_resetAsserted (f : Timebase → Timebase) : (s.modTb f).resetAsserted = s.resetAsserted := rfl
@[simp] theorem modTb_rack (f : Timebase → Timebase) : (s.modTb f).rack = s.rack := rfl
@[simp] theorem modTb_frac (f : Timebase → Timebase) : (s.modTb f).frac = s.frac := rfl
@[simp] theorem modTb_fracRem (f : Timebase → Timebase) : (s.modTb f).fracRem = s.fracRem := rfl
@[simp] theorem modTb_syncs (f : Timebase → Timebase) : (s.modTb f).syncs = s.syncs := rfl
@[simp] theorem modTb_ports (f : Timebase → Timebase) : (s.modTb f).ports = s.ports := rfl
@[simp] theorem modTb_counters (f : Timebase → Timebase) : (s.modTb f).counters = s.counters := rfl
@[simp] theorem modTb_initDrop (f : Timebase → Timebase) : (s.modTb f).initDrop = s.initDrop := rfl
@[simp] theorem modTb_captureOverflow (f : Timebase → Timebase) : (s.modTb f).captureOverflow = s.captureOverflow := rfl
@[simp] theorem modTb_margins (f : Timebase → Timebase) : (s.modTb f).margins = s.margins := rfl
@[simp] theorem modTb_roster (f : Timebase → Timebase) : (s.modTb f).roster = s.roster := rfl
@[simp] theorem modTb_admitMinSteps (f : Timebase → Timebase) : (s.modTb f).admitMinSteps = s.admitMinSteps := rfl
@[simp] theorem modTb_drainLimitMs (f : Timebase → Timebase) : (s.modTb f).drainLimitMs = s.drainLimitMs := rfl
@[simp] theorem modTb_lines (f : Timebase → Timebase) : (s.modTb f).lines = s.lines := rfl
@[simp] theorem modTb_panel (f : Timebase → Timebase) : (s.modTb f).panel = s.panel := rfl
@[simp] theorem modTb_trigs (f : Timebase → Timebase) : (s.modTb f).trigs = s.trigs := rfl
@[simp] theorem modTb_captures (f : Timebase → Timebase) : (s.modTb f).captures = s.captures := rfl
@[simp] theorem modTb_captureCount (f : Timebase → Timebase) : (s.modTb f).captureCount = s.captureCount := rfl
@[simp] theorem modTb_lead (f : Timebase → Timebase) : (s.modTb f).lead = s.lead := rfl
@[simp] theorem modTb_routes (f : Timebase → Timebase) : (s.modTb f).routes = s.routes := rfl
@[simp] theorem modTb_writing (f : Timebase → Timebase) : (s.modTb f).writing = s.writing := rfl
@[simp] theorem modTb_waiting (f : Timebase → Timebase) : (s.modTb f).waiting = s.waiting := rfl
@[simp] theorem modTb_ready (f : Timebase → Timebase) : (s.modTb f).ready = s.ready := rfl
@[simp] theorem modTb_agingEnds (f : Timebase → Timebase) : (s.modTb f).agingEnds = s.agingEnds := rfl
@[simp] theorem modTb_agingInterval (f : Timebase → Timebase) : (s.modTb f).agingInterval = s.agingInterval := rfl
@[simp] theorem modTb_highMark (f : Timebase → Timebase) : (s.modTb f).highMark = s.highMark := rfl
@[simp] theorem modTb_lowMark (f : Timebase → Timebase) : (s.modTb f).lowMark = s.lowMark := rfl
@[simp] theorem modTb_holdTime (f : Timebase → Timebase) : (s.modTb f).holdTime = s.holdTime := rfl
@[simp] theorem modTb_pool (f : Timebase → Timebase) : (s.modTb f).pool = s.pool := rfl
@[simp] theorem modTb_egress (f : Timebase → Timebase) : (s.modTb f).egress = s.egress := rfl
@[simp] theorem modTb_holds (f : Timebase → Timebase) : (s.modTb f).holds = s.holds := rfl
@[simp] theorem modTb_access (f : Timebase → Timebase) : (s.modTb f).access = s.access := rfl
@[simp] theorem modTb_clients (f : Timebase → Timebase) : (s.modTb f).clients = s.clients := rfl
@[simp] theorem modTb_outstanding (f : Timebase → Timebase) : (s.modTb f).outstanding = s.outstanding := rfl
@[simp] theorem modTb_rcp (f : Timebase → Timebase) : (s.modTb f).rcp = s.rcp := rfl
@[simp] theorem modTb_port (f : Timebase → Timebase) (m : Link) : (s.modTb f).port m = s.port m := rfl
@[simp] theorem modTb_entry (f : Timebase → Timebase) (m : Link) : (s.modTb f).entry m = s.entry m := rfl
@[simp] theorem modTb_margin (f : Timebase → Timebase) (m : Link) : (s.modTb f).margin m = s.margin m := rfl
@[simp] theorem modTb_line (f : Timebase → Timebase) (m : Link) : (s.modTb f).line m = s.line m := rfl
@[simp] theorem modTb_sync (f : Timebase → Timebase) (m : Link) : (s.modTb f).sync m = s.sync m := rfl
@[simp] theorem modTb_queues (f : Timebase → Timebase) (m : Link) : (s.modTb f).queues m = s.queues m := rfl
@[simp] theorem modTb_trig (f : Timebase → Timebase) (j : TrigIx) : (s.modTb f).trig j = s.trig j := rfl
@[simp] theorem modTb_route (f : Timebase → Timebase) (j : RouteIx) : (s.modTb f).route j = s.route j := rfl
@[simp] theorem modTb_slot (f : Timebase → Timebase) (j : SlotIx) : (s.modTb f).slot j = s.slot j := rfl
@[simp] theorem modTb_client (f : Timebase → Timebase) (rq2 : Requester) : (s.modTb f).client rq2 = s.client rq2 := rfl
@[simp] theorem modTb_counter (f : Timebase → Timebase) (m : Link) (d : LinkCounter) : (s.modTb f).counter m d = s.counter m d := rfl

/-! ### State.countBy -/

@[simp] theorem countBy_pending (n : Link) (c : LinkCounter) (k : Nat) : (s.countBy n c k).pending = s.pending := rfl
@[simp] theorem countBy_osc (n : Link) (c : LinkCounter) (k : Nat) : (s.countBy n c k).osc = s.osc := rfl
@[simp] theorem countBy_idleNs (n : Link) (c : LinkCounter) (k : Nat) : (s.countBy n c k).idleNs = s.idleNs := rfl
@[simp] theorem countBy_resetAsserted (n : Link) (c : LinkCounter) (k : Nat) : (s.countBy n c k).resetAsserted = s.resetAsserted := rfl
@[simp] theorem countBy_rack (n : Link) (c : LinkCounter) (k : Nat) : (s.countBy n c k).rack = s.rack := rfl
@[simp] theorem countBy_frac (n : Link) (c : LinkCounter) (k : Nat) : (s.countBy n c k).frac = s.frac := rfl
@[simp] theorem countBy_fracRem (n : Link) (c : LinkCounter) (k : Nat) : (s.countBy n c k).fracRem = s.fracRem := rfl
@[simp] theorem countBy_tb (n : Link) (c : LinkCounter) (k : Nat) : (s.countBy n c k).tb = s.tb := rfl
@[simp] theorem countBy_syncs (n : Link) (c : LinkCounter) (k : Nat) : (s.countBy n c k).syncs = s.syncs := rfl
@[simp] theorem countBy_ports (n : Link) (c : LinkCounter) (k : Nat) : (s.countBy n c k).ports = s.ports := rfl
@[simp] theorem countBy_initDrop (n : Link) (c : LinkCounter) (k : Nat) : (s.countBy n c k).initDrop = s.initDrop := rfl
@[simp] theorem countBy_captureOverflow (n : Link) (c : LinkCounter) (k : Nat) : (s.countBy n c k).captureOverflow = s.captureOverflow := rfl
@[simp] theorem countBy_margins (n : Link) (c : LinkCounter) (k : Nat) : (s.countBy n c k).margins = s.margins := rfl
@[simp] theorem countBy_roster (n : Link) (c : LinkCounter) (k : Nat) : (s.countBy n c k).roster = s.roster := rfl
@[simp] theorem countBy_admitMinSteps (n : Link) (c : LinkCounter) (k : Nat) : (s.countBy n c k).admitMinSteps = s.admitMinSteps := rfl
@[simp] theorem countBy_drainLimitMs (n : Link) (c : LinkCounter) (k : Nat) : (s.countBy n c k).drainLimitMs = s.drainLimitMs := rfl
@[simp] theorem countBy_lines (n : Link) (c : LinkCounter) (k : Nat) : (s.countBy n c k).lines = s.lines := rfl
@[simp] theorem countBy_panel (n : Link) (c : LinkCounter) (k : Nat) : (s.countBy n c k).panel = s.panel := rfl
@[simp] theorem countBy_trigs (n : Link) (c : LinkCounter) (k : Nat) : (s.countBy n c k).trigs = s.trigs := rfl
@[simp] theorem countBy_captures (n : Link) (c : LinkCounter) (k : Nat) : (s.countBy n c k).captures = s.captures := rfl
@[simp] theorem countBy_captureCount (n : Link) (c : LinkCounter) (k : Nat) : (s.countBy n c k).captureCount = s.captureCount := rfl
@[simp] theorem countBy_lead (n : Link) (c : LinkCounter) (k : Nat) : (s.countBy n c k).lead = s.lead := rfl
@[simp] theorem countBy_routes (n : Link) (c : LinkCounter) (k : Nat) : (s.countBy n c k).routes = s.routes := rfl
@[simp] theorem countBy_writing (n : Link) (c : LinkCounter) (k : Nat) : (s.countBy n c k).writing = s.writing := rfl
@[simp] theorem countBy_waiting (n : Link) (c : LinkCounter) (k : Nat) : (s.countBy n c k).waiting = s.waiting := rfl
@[simp] theorem countBy_ready (n : Link) (c : LinkCounter) (k : Nat) : (s.countBy n c k).ready = s.ready := rfl
@[simp] theorem countBy_agingEnds (n : Link) (c : LinkCounter) (k : Nat) : (s.countBy n c k).agingEnds = s.agingEnds := rfl
@[simp] theorem countBy_agingInterval (n : Link) (c : LinkCounter) (k : Nat) : (s.countBy n c k).agingInterval = s.agingInterval := rfl
@[simp] theorem countBy_highMark (n : Link) (c : LinkCounter) (k : Nat) : (s.countBy n c k).highMark = s.highMark := rfl
@[simp] theorem countBy_lowMark (n : Link) (c : LinkCounter) (k : Nat) : (s.countBy n c k).lowMark = s.lowMark := rfl
@[simp] theorem countBy_holdTime (n : Link) (c : LinkCounter) (k : Nat) : (s.countBy n c k).holdTime = s.holdTime := rfl
@[simp] theorem countBy_pool (n : Link) (c : LinkCounter) (k : Nat) : (s.countBy n c k).pool = s.pool := rfl
@[simp] theorem countBy_egress (n : Link) (c : LinkCounter) (k : Nat) : (s.countBy n c k).egress = s.egress := rfl
@[simp] theorem countBy_holds (n : Link) (c : LinkCounter) (k : Nat) : (s.countBy n c k).holds = s.holds := rfl
@[simp] theorem countBy_access (n : Link) (c : LinkCounter) (k : Nat) : (s.countBy n c k).access = s.access := rfl
@[simp] theorem countBy_clients (n : Link) (c : LinkCounter) (k : Nat) : (s.countBy n c k).clients = s.clients := rfl
@[simp] theorem countBy_outstanding (n : Link) (c : LinkCounter) (k : Nat) : (s.countBy n c k).outstanding = s.outstanding := rfl
@[simp] theorem countBy_rcp (n : Link) (c : LinkCounter) (k : Nat) : (s.countBy n c k).rcp = s.rcp := rfl
@[simp] theorem countBy_port (n : Link) (c : LinkCounter) (k : Nat) (m : Link) : (s.countBy n c k).port m = s.port m := rfl
@[simp] theorem countBy_entry (n : Link) (c : LinkCounter) (k : Nat) (m : Link) : (s.countBy n c k).entry m = s.entry m := rfl
@[simp] theorem countBy_margin (n : Link) (c : LinkCounter) (k : Nat) (m : Link) : (s.countBy n c k).margin m = s.margin m := rfl
@[simp] theorem countBy_line (n : Link) (c : LinkCounter) (k : Nat) (m : Link) : (s.countBy n c k).line m = s.line m := rfl
@[simp] theorem countBy_sync (n : Link) (c : LinkCounter) (k : Nat) (m : Link) : (s.countBy n c k).sync m = s.sync m := rfl
@[simp] theorem countBy_queues (n : Link) (c : LinkCounter) (k : Nat) (m : Link) : (s.countBy n c k).queues m = s.queues m := rfl
@[simp] theorem countBy_trig (n : Link) (c : LinkCounter) (k : Nat) (j : TrigIx) : (s.countBy n c k).trig j = s.trig j := rfl
@[simp] theorem countBy_route (n : Link) (c : LinkCounter) (k : Nat) (j : RouteIx) : (s.countBy n c k).route j = s.route j := rfl
@[simp] theorem countBy_slot (n : Link) (c : LinkCounter) (k : Nat) (j : SlotIx) : (s.countBy n c k).slot j = s.slot j := rfl
@[simp] theorem countBy_client (n : Link) (c : LinkCounter) (k : Nat) (rq2 : Requester) : (s.countBy n c k).client rq2 = s.client rq2 := rfl

/-! ### State.count -/

@[simp] theorem count_pending (n : Link) (c : LinkCounter) : (s.count n c).pending = s.pending := rfl
@[simp] theorem count_osc (n : Link) (c : LinkCounter) : (s.count n c).osc = s.osc := rfl
@[simp] theorem count_idleNs (n : Link) (c : LinkCounter) : (s.count n c).idleNs = s.idleNs := rfl
@[simp] theorem count_resetAsserted (n : Link) (c : LinkCounter) : (s.count n c).resetAsserted = s.resetAsserted := rfl
@[simp] theorem count_rack (n : Link) (c : LinkCounter) : (s.count n c).rack = s.rack := rfl
@[simp] theorem count_frac (n : Link) (c : LinkCounter) : (s.count n c).frac = s.frac := rfl
@[simp] theorem count_fracRem (n : Link) (c : LinkCounter) : (s.count n c).fracRem = s.fracRem := rfl
@[simp] theorem count_tb (n : Link) (c : LinkCounter) : (s.count n c).tb = s.tb := rfl
@[simp] theorem count_syncs (n : Link) (c : LinkCounter) : (s.count n c).syncs = s.syncs := rfl
@[simp] theorem count_ports (n : Link) (c : LinkCounter) : (s.count n c).ports = s.ports := rfl
@[simp] theorem count_initDrop (n : Link) (c : LinkCounter) : (s.count n c).initDrop = s.initDrop := rfl
@[simp] theorem count_captureOverflow (n : Link) (c : LinkCounter) : (s.count n c).captureOverflow = s.captureOverflow := rfl
@[simp] theorem count_margins (n : Link) (c : LinkCounter) : (s.count n c).margins = s.margins := rfl
@[simp] theorem count_roster (n : Link) (c : LinkCounter) : (s.count n c).roster = s.roster := rfl
@[simp] theorem count_admitMinSteps (n : Link) (c : LinkCounter) : (s.count n c).admitMinSteps = s.admitMinSteps := rfl
@[simp] theorem count_drainLimitMs (n : Link) (c : LinkCounter) : (s.count n c).drainLimitMs = s.drainLimitMs := rfl
@[simp] theorem count_lines (n : Link) (c : LinkCounter) : (s.count n c).lines = s.lines := rfl
@[simp] theorem count_panel (n : Link) (c : LinkCounter) : (s.count n c).panel = s.panel := rfl
@[simp] theorem count_trigs (n : Link) (c : LinkCounter) : (s.count n c).trigs = s.trigs := rfl
@[simp] theorem count_captures (n : Link) (c : LinkCounter) : (s.count n c).captures = s.captures := rfl
@[simp] theorem count_captureCount (n : Link) (c : LinkCounter) : (s.count n c).captureCount = s.captureCount := rfl
@[simp] theorem count_lead (n : Link) (c : LinkCounter) : (s.count n c).lead = s.lead := rfl
@[simp] theorem count_routes (n : Link) (c : LinkCounter) : (s.count n c).routes = s.routes := rfl
@[simp] theorem count_writing (n : Link) (c : LinkCounter) : (s.count n c).writing = s.writing := rfl
@[simp] theorem count_waiting (n : Link) (c : LinkCounter) : (s.count n c).waiting = s.waiting := rfl
@[simp] theorem count_ready (n : Link) (c : LinkCounter) : (s.count n c).ready = s.ready := rfl
@[simp] theorem count_agingEnds (n : Link) (c : LinkCounter) : (s.count n c).agingEnds = s.agingEnds := rfl
@[simp] theorem count_agingInterval (n : Link) (c : LinkCounter) : (s.count n c).agingInterval = s.agingInterval := rfl
@[simp] theorem count_highMark (n : Link) (c : LinkCounter) : (s.count n c).highMark = s.highMark := rfl
@[simp] theorem count_lowMark (n : Link) (c : LinkCounter) : (s.count n c).lowMark = s.lowMark := rfl
@[simp] theorem count_holdTime (n : Link) (c : LinkCounter) : (s.count n c).holdTime = s.holdTime := rfl
@[simp] theorem count_pool (n : Link) (c : LinkCounter) : (s.count n c).pool = s.pool := rfl
@[simp] theorem count_egress (n : Link) (c : LinkCounter) : (s.count n c).egress = s.egress := rfl
@[simp] theorem count_holds (n : Link) (c : LinkCounter) : (s.count n c).holds = s.holds := rfl
@[simp] theorem count_access (n : Link) (c : LinkCounter) : (s.count n c).access = s.access := rfl
@[simp] theorem count_clients (n : Link) (c : LinkCounter) : (s.count n c).clients = s.clients := rfl
@[simp] theorem count_outstanding (n : Link) (c : LinkCounter) : (s.count n c).outstanding = s.outstanding := rfl
@[simp] theorem count_rcp (n : Link) (c : LinkCounter) : (s.count n c).rcp = s.rcp := rfl
@[simp] theorem count_port (n : Link) (c : LinkCounter) (m : Link) : (s.count n c).port m = s.port m := rfl
@[simp] theorem count_entry (n : Link) (c : LinkCounter) (m : Link) : (s.count n c).entry m = s.entry m := rfl
@[simp] theorem count_margin (n : Link) (c : LinkCounter) (m : Link) : (s.count n c).margin m = s.margin m := rfl
@[simp] theorem count_line (n : Link) (c : LinkCounter) (m : Link) : (s.count n c).line m = s.line m := rfl
@[simp] theorem count_sync (n : Link) (c : LinkCounter) (m : Link) : (s.count n c).sync m = s.sync m := rfl
@[simp] theorem count_queues (n : Link) (c : LinkCounter) (m : Link) : (s.count n c).queues m = s.queues m := rfl
@[simp] theorem count_trig (n : Link) (c : LinkCounter) (j : TrigIx) : (s.count n c).trig j = s.trig j := rfl
@[simp] theorem count_route (n : Link) (c : LinkCounter) (j : RouteIx) : (s.count n c).route j = s.route j := rfl
@[simp] theorem count_slot (n : Link) (c : LinkCounter) (j : SlotIx) : (s.count n c).slot j = s.slot j := rfl
@[simp] theorem count_client (n : Link) (c : LinkCounter) (rq2 : Requester) : (s.count n c).client rq2 = s.client rq2 := rfl

/-! ### The part that is updated -/

@[simp] theorem modPort_port (n m : Link) (f : LinkPort → LinkPort) :
    (s.modPort n f).port m = if m = n then f (s.port n) else s.port m := by
  simp only [State.port, State.modPort, Fin.getElem_fin, Vector.getElem_set, Fin.ext_iff, eq_comm]

@[simp] theorem modEntry_entry (n m : Link) (f : RosterEntry → RosterEntry) :
    (s.modEntry n f).entry m = if m = n then f (s.entry n) else s.entry m := by
  simp only [State.entry, State.modEntry, Fin.getElem_fin, Vector.getElem_set, Fin.ext_iff, eq_comm]

@[simp] theorem modMargin_margin (n m : Link) (f : MarginUnit → MarginUnit) :
    (s.modMargin n f).margin m = if m = n then f (s.margin n) else s.margin m := by
  simp only [State.margin, State.modMargin, Fin.getElem_fin, Vector.getElem_set, Fin.ext_iff, eq_comm]

@[simp] theorem modLine_line (n m : Link) (f : LinkLines → LinkLines) :
    (s.modLine n f).line m = if m = n then f (s.line n) else s.line m := by
  simp only [State.line, State.modLine, Fin.getElem_fin, Vector.getElem_set, Fin.ext_iff, eq_comm]

@[simp] theorem modSync_sync (n m : Link) (f : LinkSync → LinkSync) :
    (s.modSync n f).sync m = if m = n then f (s.sync n) else s.sync m := by
  simp only [State.sync, State.modSync, Fin.getElem_fin, Vector.getElem_set, Fin.ext_iff, eq_comm]

@[simp] theorem modQueues_queues (n m : Link) (f : Egress → Egress) :
    (s.modQueues n f).queues m = if m = n then f (s.queues n) else s.queues m := by
  simp only [State.queues, State.modQueues, Fin.getElem_fin, Vector.getElem_set, Fin.ext_iff, eq_comm]

@[simp] theorem modTrig_trig (i j : TrigIx) (f : TrigEntry → TrigEntry) :
    (s.modTrig i f).trig j = if j = i then f (s.trig i) else s.trig j := by
  simp only [State.trig, State.modTrig, Fin.getElem_fin, Vector.getElem_set, Fin.ext_iff, eq_comm]

@[simp] theorem setRoute_route (i j : RouteIx) (r : Option Route) :
    (s.setRoute i r).route j = if j = i then r else s.route j := by
  simp only [State.route, State.setRoute, Fin.getElem_fin, Vector.getElem_set, Fin.ext_iff, eq_comm]

@[simp] theorem setSlot_slot (i j : SlotIx) (sl : Option Slot) :
    (s.setSlot i sl).slot j = if j = i then sl else s.slot j := by
  simp only [State.slot, State.setSlot, Fin.getElem_fin, Vector.getElem_set, Fin.ext_iff, eq_comm]

/-- Each requester has a record of its own. -/
theorem clientIx_inj {a b : Requester} : clientIx a = clientIx b ↔ a = b := by
  cases a <;> cases b <;> simp [clientIx, Fin.succ_ne_zero, (Fin.succ_ne_zero _).symm]

@[simp] theorem modClient_client (rq rq2 : Requester) (f : Client → Client) :
    (s.modClient rq f).client rq2 = if rq2 = rq then f (s.client rq) else s.client rq2 := by
  simp only [State.client, State.modClient, Fin.getElem_fin, Vector.getElem_set, ← clientIx_inj, Fin.ext_iff, eq_comm]

@[simp] theorem setOutstanding_get (n m : Link) (b : Bool) :
    (s.setOutstanding n b).outstanding[m] = if m = n then b else s.outstanding[m] := by
  simp only [State.setOutstanding, Fin.getElem_fin, Vector.getElem_set, Fin.ext_iff, eq_comm]

@[simp] theorem modTb_tb (f : Timebase → Timebase) : (s.modTb f).tb = f s.tb := rfl

/-- Each counter has a place of its own. -/
theorem LinkCounter.ix_inj {a b : LinkCounter} : a.ix = b.ix ↔ a = b := by
  cases a <;> cases b <;> decide

@[simp] theorem countBy_counter (n m : Link) (c d : LinkCounter) (k : Nat) :
    (s.countBy n c k).counter m d = if m = n ∧ d = c then satAdd (s.counter n c) k else s.counter m d := by
  simp only [State.counter, State.countBy, Fin.getElem_fin, Vector.getElem_set]
  by_cases h : m = n
  · subst h
    by_cases g : d = c
    · subst g; simp
    · have : (c.ix : Nat) ≠ d.ix := fun e => g ((LinkCounter.ix_inj.mp (Fin.ext e)).symm)
      simp [g, this]
  · have : (n : Nat) ≠ m := fun e => h (Fin.ext e.symm)
    simp [h, this]

@[simp] theorem count_counter (n m : Link) (c d : LinkCounter) :
    (s.count n c).counter m d = if m = n ∧ d = c then satAdd (s.counter n c) 1 else s.counter m d :=
  countBy_counter s n m c d 1

end Sys2Proof.Machine
end

