-- ==== Sys2Proof/Laws/Frames.lean ====
section
/-! SUPPORT. What an operation may touch. Each shared operation has one lemma of the form `Within gs s (op … s)`, cited in
place of unfolding it: `(op_within …) .captures (by decide)` is `(op … s).captures = s.captures`. -/

namespace Sys2Proof.Machine

theorem Part.same_refl (s : State) (x : Part) : x.same s s := by cases x <;> simp [Part.same]

theorem Part.same_trans {s t u : State} {x : Part} (h : x.same s t) (g : x.same t u) : x.same s u := by
  cases x <;> simp_all [Part.same]

theorem Within.refl (gs : List Part) (s : State) : Within gs s s := fun x _ => Part.same_refl s x

theorem Within.mono {gs hs : List Part} {s t : State} (h : Within gs s t) (sub : gs ⊆ hs) : Within hs s t :=
  fun x hx => h x fun g => hx (sub g)

theorem Within.trans {gs : List Part} {s t u : State} (h : Within gs s t) (g : Within gs t u) : Within gs s u :=
  fun x hx => Part.same_trans (h x hx) (g x hx)

/-- One operation after another. -/
theorem Within.andThen {gs hs ks : List Part} {s t u : State} (h : Within gs s t) (g : Within hs t u)
    (sub : gs ⊆ ks := by decide) (sub' : hs ⊆ ks := by decide) : Within ks s u :=
  (h.mono sub).trans (g.mono sub')

/-- An operation repeated over a list. -/
theorem Within.foldl {gs : List Part} {α : Type} {f : State → α → State} (h : ∀ s a, Within gs s (f s a)) :
    ∀ (l : List α) (s : State), Within gs s (l.foldl f s)
  | [], s => Within.refl gs s
  | a :: l, s => (h s a).trans (Within.foldl h l (f s a))

/-! ### The updates of one part -/

theorem modPort_within (n : Link) (f : LinkPort → LinkPort) (s : State) : Within [.ports, .service] s (s.modPort n f) := by
  intro x hx; cases x <;> first | rfl | exact absurd (by decide) hx | exact fun _ => rfl
theorem modEntry_within (n : Link) (f : RosterEntry → RosterEntry) (s : State) : Within [.roster] s (s.modEntry n f) := by
  intro x hx; cases x <;> first | rfl | exact absurd (by decide) hx | exact fun _ => rfl
theorem modMargin_within (n : Link) (f : MarginUnit → MarginUnit) (s : State) : Within [.margins] s (s.modMargin n f) := by
  intro x hx; cases x <;> first | rfl | exact absurd (by decide) hx | exact fun _ => rfl
theorem modLine_within (n : Link) (f : LinkLines → LinkLines) (s : State) : Within [.lines, .settings] s (s.modLine n f) := by
  intro x hx; cases x <;> first | rfl | exact absurd (by decide) hx | exact fun _ => rfl
theorem modSync_within (n : Link) (f : LinkSync → LinkSync) (s : State) : Within [.syncs] s (s.modSync n f) := by
  intro x hx; cases x <;> first | rfl | exact absurd (by decide) hx | exact fun _ => rfl
theorem modQueues_within (n : Link) (f : Egress → Egress) (s : State) : Within [.egress] s (s.modQueues n f) := by
  intro x hx; cases x <;> first | rfl | exact absurd (by decide) hx | exact fun _ => rfl
theorem modTrig_within (i : TrigIx) (f : TrigEntry → TrigEntry) (s : State) : Within [.trigs] s (s.modTrig i f) := by
  intro x hx; cases x <;> first | rfl | exact absurd (by decide) hx | exact fun _ => rfl
theorem setRoute_within (i : RouteIx) (r : Option Route) (s : State) : Within [.routes] s (s.setRoute i r) := by
  intro x hx; cases x <;> first | rfl | exact absurd (by decide) hx | exact fun _ => rfl
theorem setSlot_within (i : SlotIx) (sl : Option Slot) (s : State) : Within [.pool] s (s.setSlot i sl) := by
  intro x hx; cases x <;> first | rfl | exact absurd (by decide) hx | exact fun _ => rfl
theorem modClient_within (rq : Requester) (f : Client → Client) (s : State) : Within [.clients, .flags] s (s.modClient rq f) := by
  intro x hx; cases x <;> first | rfl | exact absurd (by decide) hx | exact fun _ => rfl
theorem setOutstanding_within (n : Link) (b : Bool) (s : State) : Within [.outstanding] s (s.setOutstanding n b) := by
  intro x hx; cases x <;> first | rfl | exact absurd (by decide) hx | exact fun _ => rfl
theorem modTb_within (f : Timebase → Timebase) (s : State) : Within [.tb] s (s.modTb f) := by
  intro x hx; cases x <;> first | rfl | exact absurd (by decide) hx | exact fun _ => rfl
theorem countBy_within (n : Link) (c : LinkCounter) (k : Nat) (s : State) : Within [.counters] s (s.countBy n c k) := by
  intro x hx; cases x <;> first | rfl | exact absurd (by decide) hx | exact fun _ => rfl
theorem count_within (n : Link) (c : LinkCounter) (s : State) : Within [.counters] s (s.count n c) := by
  intro x hx; cases x <;> first | rfl | exact absurd (by decide) hx | exact fun _ => rfl

/-- A port whose arbiter alone changes. -/
theorem modPort_arbiter_within (n : Link) (f : LinkPort → LinkPort) (h : ∀ p, (f p).service = p.service) (s : State) :
    Within [.ports] s (s.modPort n f) := by
  intro x hx
  cases x <;> first
    | rfl
    | exact absurd (by decide) hx
    | exact fun _ => rfl
    | (intro m; rw [modPort_port]; split <;> simp_all)

/-- A client whose pending set alone changes. -/
theorem modClient_news_within (rq : Requester) (f : Client → Client)
    (h : ∀ c, (f c).standing = c.standing) (s : State) : Within [.clients] s (s.modClient rq f) := by
  intro x hx
  cases x <;> first
    | rfl
    | exact absurd (by decide) hx
    | exact fun _ => rfl
    | (intro m; rw [modClient_client]; split <;> simp_all)

/-- The lines of a link of which the pulse alone changes. -/
theorem modLine_pulse_within (n : Link) (f : LinkLines → LinkLines)
    (h : ∀ l, (f l).settings = l.settings) (s : State) : Within [.lines] s (s.modLine n f) := by
  intro x hx
  cases x <;> first
    | rfl
    | exact absurd (by decide) hx
    | exact fun _ => rfl
    | (intro m; rw [modLine_line]; split <;> simp_all)

end Sys2Proof.Machine
end

