-- ==== Sys2Proof/Laws/Ops.lean ====
section
/-! SUPPORT. What each shared operation of the arbiter, the notices, the Stream Switch, the lines, the Trigger Unit and
the Lane Margin Unit may touch. -/

namespace Sys2Proof.Machine

-- One declaration after another: the checks of the proofs by decide would otherwise wait for each other in many threads.
set_option Elab.async false

/-! ### The arbiter and notices -/

theorem enqueueCell_service (c : TxCell) (p : LinkPort) : (enqueueCell c p).service = p.service := by
  cases c <;> rfl

theorem takeWaiting_service {p p' : LinkPort} {c : TxCell} (h : takeWaiting p = some (c, p')) :
    p'.service = p.service ∧ p'.tx = p.tx := by
  unfold takeWaiting at h
  repeat' split at h
  all_goals first
    | (simp only [Option.some.injEq, Prod.mk.injEq] at h; obtain ⟨_, rfl⟩ := h; exact ⟨rfl, rfl⟩)
    | cases h

theorem startCell_service (p : LinkPort) : (startCell p).service = p.service := by
  unfold startCell
  split
  · split
    · rename_i c p' h
      exact (takeWaiting_service h).1
    · rfl
  · rfl

theorem offerToPort_service (c : TxCell) (p : LinkPort) : (offerToPort c p).service = p.service := by
  unfold offerToPort
  split
  · rw [startCell_service, enqueueCell_service]
  · rfl

theorem offerCell_within (n : Link) (c : TxCell) (s : State) : Within [.ports] s (offerCell n c s) :=
  modPort_arbiter_within n _ (offerToPort_service c) s

theorem offerNotice_within (n : Link) (s : State) : Within [.ports, .outstanding] s (offerNotice n s) := by
  unfold offerNotice
  simp only
  split
  · exact (offerCell_within n _ s).andThen (setOutstanding_within n true _)
  · exact Within.refl _ s

theorem tell_within (rq : Requester) (kinds : NoticeSet) (s : State) :
    Within [.ports, .outstanding] s (tell rq kinds s) := by
  unfold tell
  split
  · exact Within.refl _ s
  · split
    · exact offerNotice_within _ s
    · exact Within.refl _ s

theorem notify_within (k : Notice) (s : State) (rq : Requester) : Within told s (notify k s rq) :=
  (modClient_news_within rq (fun c => { c with news := c.news ||| k.bit }) (fun _ => rfl) s).andThen (tell_within rq k.bit _)

theorem notifyAll_within (k : Notice) (s : State) : Within told s (notifyAll k s) :=
  Within.foldl (notify_within k) allRequesters s

theorem notifyOwner_within (k : Notice) (owner : Option Requester) (s : State) :
    Within told s (notifyOwner k owner s) := by
  cases owner with
  | some rq => exact notify_within k s rq
  | none => exact Within.refl _ s

/-! ### Time -/

/-- A change of the clocks alone. -/
theorem clock_within (a : Nat) (b : Time) (c : BitVec 32) (d : Nat) (s : State) :
    Within [.osc, .rack, .frac, .fracRem] s { s with osc := a, rack := b, frac := c, fracRem := d } := by
  intro x hx; cases x <;> first | rfl | exact absurd (by decide) hx | exact fun _ => rfl

theorem advance_within (dt : Nat) (s : State) : Within [.osc, .rack, .frac, .fracRem] s (advance dt s) := by
  unfold advance
  split
  · exact clock_within _ s.rack s.frac s.fracRem s
  · exact clock_within _ _ _ _ s

theorem advanceTo_within (moment : Nat) (s : State) :
    Within [.osc, .rack, .frac, .fracRem] s (advanceTo moment s) := advance_within _ s

theorem advanceToRack_within (target : Nat) (s : State) :
    Within [.osc, .rack, .frac, .fracRem] s (advanceToRack target s) := advance_within _ s

/-- While RESET is not asserted time passes on the oscillator by what was asked. -/
@[simp] theorem advance_osc (dt : Nat) (s : State) : (advance dt s).osc = s.osc + dt := by
  unfold advance; split <;> rfl

theorem advanceTo_osc (moment : Nat) (s : State) : (advanceTo moment s).osc = max s.osc moment := by
  simp only [advanceTo, advance_osc]; omega

/-! ### Stream Switch -/

theorem releaseSlot_within (i : SlotIx) (s : State) : Within [.pool] s (releaseSlot i s) := by
  unfold releaseSlot
  split
  · exact setSlot_within i _ s
  · exact Within.refl _ s

theorem offerResume_within (s : State) (h : HoldEntry) : Within [.ports] s (offerResume s h) := by
  unfold offerResume
  split
  · exact offerCell_within _ _ s
  · exact Within.refl _ s

/-- A change of the hold list alone. -/
theorem holds_within (hs : List HoldEntry) (s : State) : Within [.holds] s { s with holds := hs } := by
  intro x hx; cases x <;> first | rfl | exact absurd (by decide) hx | exact fun _ => rfl

theorem releaseHolds_within (p : HoldEntry → Bool) (s : State) : Within [.ports, .holds] s (releaseHolds p s) :=
  (holds_within _ s).andThen (Within.foldl offerResume_within _ _)

theorem offerHold_within (stream : StreamId) (source : Link) (s : State) :
    Within [.ports, .counters] s (offerHold stream source s) :=
  (offerCell_within source _ s).andThen (count_within source .holdsSent _)

theorem holdTest_within (stream : StreamId) (src e : Link) (s : State) :
    Within [.ports, .counters, .holds] s (holdTest stream src e s) := by
  unfold holdTest
  split; · exact Within.refl _ s
  split; · exact Within.refl _ s
  split; · exact Within.refl _ s
  split
  · exact (holds_within _ s).andThen (offerHold_within stream src _)
  · exact (count_within src .holdsRefused s).mono (by decide)

theorem releaseTest_within (e : Link) (s : State) : Within [.ports, .holds] s (releaseTest e s) := by
  unfold releaseTest
  split
  · exact releaseHolds_within _ s
  · exact Within.refl _ s

theorem expireHold_within (h : HoldEntry) (s : State) :
    Within [.ports, .counters, .holds] s (expireHold h s) := by
  unfold expireHold
  split
  · exact (holds_within _ s).andThen (offerHold_within h.stream h.source _)
  · exact (holds_within _ s).mono (by decide)

theorem startNext_within (n : Link) (s : State) : Within [.ports, .egress, .holds] s (startNext n s) := by
  have w : Within [.ports] s (s.modPort n startCell) := modPort_arbiter_within n _ startCell_service s
  unfold startNext
  simp only
  split
  · split
    · rename_i slot fromNormal q _
      have v : Within [.ports, .egress] (s.modPort n startCell)
          (((s.modPort n startCell).modQueues n fun _ => q).modPort n fun p => { p with tx := some (.block slot) }) :=
        (modQueues_within n _ _).andThen (modPort_arbiter_within n (fun p => { p with tx := some (.block slot) }) (fun _ => rfl) _)
      split
      · exact (w.andThen v : Within [.ports, .egress] _ _).andThen (releaseTest_within n _)
      · exact w.andThen v
    · exact w.mono (by decide)
  · exact w.mono (by decide)

theorem addRef_within (i : SlotIx) (s : State) : Within [.pool] s (addRef i s) := setSlot_within i _ s

theorem fanOutTo_within (i : SlotIx) (r : Route) (s : State) (e : Link) :
    Within streamed s (fanOutTo i r s e) := by
  unfold fanOutTo
  split; · exact (count_within e _ s).mono (by decide)
  split; · exact (count_within e _ s).mono (by decide)
  simp only
  have w : Within [.egress, .pool] s (addRef i (s.modQueues e (appendRef r.cls i))) :=
    (modQueues_within e _ s).andThen (addRef_within i _)
  split
  · exact (w.andThen (holdTest_within r.stream r.source e _) : Within streamed _ _).andThen (startNext_within e _)
  · exact w.andThen (startNext_within e _)

theorem fanOut_within (block : Slot) (r : Route) (s : State) : Within streamed s (fanOut block r s) := by
  unfold fanOut
  split
  · exact (count_within r.source .dropPool s).mono (by decide)
  · rename_i i _
    have w : Within streamed s
        ((linksOf r.egress).foldl (fanOutTo i r) (s.setSlot i (some { block with refs := 0 }))) :=
      (setSlot_within i _ s).andThen (Within.foldl (fanOutTo_within i r) _ _)
    simp only
    split
    · split
      · exact w.andThen (setSlot_within i none _)
      · exact w
    · exact w

theorem flushRef_within (n : Link) (s : State) (i : SlotIx) : Within [.pool, .counters] s (flushRef n s i) :=
  (releaseSlot_within i s).andThen (count_within n .flushed _)

theorem abandonBlock_within (n : Link) (s : State) : Within [.ports, .pool, .counters] s (abandonBlock n s) := by
  unfold abandonBlock
  split
  · exact (modPort_arbiter_within n (fun p => { p with tx := none }) (fun _ => rfl) s).andThen (flushRef_within n _ _)
  · exact Within.refl _ s

theorem flushLink_within (n : Link) (s : State) : Within [.ports, .egress, .pool, .counters] s (flushLink n s) := by
  have w : Within [.pool, .counters] s
      (((s.queues n).expedite ++ (s.queues n).normal).foldl (flushRef n) s) :=
    Within.foldl (flushRef_within n) _ s
  exact (w.andThen (modQueues_within n _ _) : Within [.egress, .pool, .counters] _ _).andThen (abandonBlock_within n _)

/-! ### Lines -/

theorem callTrigPulse_within (s : State) (n : Link) : Within [.lines] s (callTrigPulse s n) := by
  unfold callTrigPulse
  split
  · exact modLine_pulse_within n (fun l => { l with pulse := some (s.osc + pulseNs) }) (fun _ => rfl) s
  · exact Within.refl _ s

theorem callPanelPulse_within (s : State) : Within [.panel] s (callPanelPulse s) := by
  unfold callPanelPulse
  split
  · intro x hx; cases x <;> first | rfl | exact absurd (by decide) hx | exact fun _ => rfl
  · exact Within.refl _ s

theorem endTrigPulse_within (n : Link) (s : State) : Within [.lines] s (endTrigPulse n s) :=
  modLine_pulse_within n (fun l => { l with pulse := none }) (fun _ => rfl) s

/-! ### Trigger Unit -/

theorem firePulse_within (p : PendingPulse) (s : State) : Within [.lines, .panel] s (firePulse p s) := by
  have w : Within [.panel] s (if p.panel then callPanelPulse s else s) := by
    split
    · exact callPanelPulse_within s
    · exact Within.refl _ s
  refine w.andThen (hs := [.lines]) (Within.foldl (fun s n => ?_) _ _)
  split
  · exact callTrigPulse_within s n
  · exact Within.refl _ s

theorem panelNow_within (i : TrigIx) (s : State) : Within [.lines, .panel, .trigs] s (panelNow i s) := by
  unfold panelNow
  split
  · exact (modTrig_within i _ s).andThen (firePulse_within _ _)
  · exact Within.refl _ s

theorem offerTrigger_within (n : Link) (c : TrigCell) (s : State) :
    Within [.ports, .counters] s (offerTrigger n c s) := by
  unfold offerTrigger
  split
  · exact (offerCell_within n _ s).mono (by decide)
  · exact (count_within n .trigMissed s).mono (by decide)

theorem sendTarget_within (i : TrigIx) (late : Bool) (s : State) (n : Link) :
    Within [.ports, .counters, .trigs] s (sendTarget i late s n) := by
  unfold sendTarget
  simp only
  split
  · exact (offerTrigger_within n _ s).mono (by decide)
  · exact (modTrig_within i _ s).andThen (count_within n .trigMissed _)

theorem finishTrig_within (i : TrigIx) (o : TrigOutcome) (f : TrigEntry → TrigEntry) (s : State) :
    Within [.ports, .clients, .outstanding, .trigs] s (finishTrig i o f s) :=
  (modTrig_within i _ s).andThen (notifyOwner_within .trigger _ _)

theorem nextInstance_within (i : TrigIx) (s : State) :
    Within [.ports, .clients, .outstanding, .trigs] s (nextInstance i s) := by
  unfold nextInstance
  simp only
  split; · exact (modTrig_within i _ s).mono (by decide)
  split
  · exact finishTrig_within i _ _ s
  · exact (modTrig_within i _ s).andThen (notifyOwner_within .trigger _ _)

theorem afterSend_within (i : TrigIx) (late : Bool) (s : State) :
    Within [.ports, .clients, .outstanding, .trigs] s (afterSend i late s) := by
  unfold afterSend
  simp only
  split; · exact finishTrig_within i _ _ s
  split
  · exact (modTrig_within i _ s).mono (by decide)
  · exact nextInstance_within i s

theorem sendCells_within (i : TrigIx) (late : Bool) (targets : List Link) (f : TrigEntry → TrigEntry) (s : State) :
    Within fired s ((panelNow i (targets.foldl (sendTarget i late) s)).modTrig i f) := by
  have v : Within fired s (panelNow i (targets.foldl (sendTarget i late) s)) :=
    (Within.foldl (sendTarget_within i late) targets s).andThen (panelNow_within i _)
  exact v.andThen (modTrig_within i f _)

theorem sendNow_within (i : TrigIx) (byStep : Bool) (s : State) : Within fired s (sendNow i byStep s) := by
  unfold sendNow
  simp only
  refine Within.trans ?_ ((afterSend_within i _ _).mono (by decide))
  split
  · exact Within.trans (sendCells_within i _ _ _ s) ((panelNow_within i _).mono (by decide))
  · exact sendCells_within i _ _ _ s

theorem testArmed_within (s : State) (i : TrigIx) : Within fired s (testArmed s i) := by
  unfold testArmed
  split
  · exact sendNow_within i false s
  · exact Within.refl _ s

theorem trigForward_within (s : State) : Within fired s (trigForward s) := by
  refine Within.andThen (gs := fired) (hs := fired) (Within.foldl (fun s i => ?_) _ _) (Within.foldl (fun s i => ?_) _ _)
  · unfold stepPulse
    split
    · split
      · exact (panelNow_within i s).mono (by decide)
      · exact Within.refl _ s
    · exact Within.refl _ s
  · unfold stepSend
    split
    · exact sendNow_within i true s
    · exact Within.refl _ s

theorem storeCapture_within (c : Capture) (s : State) :
    Within [.ports, .clients, .outstanding, .captures, .captureOverflow] s (storeCapture c s) := by
  have w : ∀ cs, Within [.captures] s { s with captures := cs } := fun cs => by
    intro x hx; cases x <;> first | rfl | exact absurd (by decide) hx | exact fun _ => rfl
  unfold storeCapture
  split
  · simp only
    split
    · exact (w _).andThen (notifyAll_within .capture _)
    · exact (w _).mono (by decide)
  · intro x hx; cases x <;> first | rfl | exact absurd (by decide) hx | exact fun _ => rfl

theorem offerCapture_within (c : Capture) (s : State) (i : TrigIx) : Within fired s (offerCapture c s i) := by
  unfold offerCapture
  simp only
  split
  · split
    · exact (modTrig_within i _ s).andThen (testArmed_within _ i)
    · exact (modTrig_within i _ s).mono (by decide)
    · exact Within.refl _ s
    · exact Within.refl _ s
  · exact Within.refl _ s

theorem makeCapture_within (o : CaptureOrigin) (src : CaptureSource) (t : Time) (u : Bool) (i : Option Time)
    (code : Option (BitVec 4)) (s : State) : Within captured s (makeCapture o src t u i code s) := by
  have w : ∀ k, Within [.captureCount] s { s with captureCount := k } := fun k => by
    intro x hx; cases x <;> first | rfl | exact absurd (by decide) hx | exact fun _ => rfl
  exact ((w _).andThen (storeCapture_within _ _) : Within captured _ _).andThen
    (Within.foldl (offerCapture_within _) _ _)

theorem cancelTriggers_within (n : Link) (s : State) :
    Within [.ports, .clients, .outstanding, .trigs] s (cancelTriggers n s) := by
  have w : ∀ t, Within [.trigs] s { s with trigs := t } := fun t => by
    intro x hx; cases x <;> first | rfl | exact absurd (by decide) hx | exact fun _ => rfl
  unfold cancelTriggers
  simp only
  split
  · exact (w _).andThen (notify_within .trigger _ .rcp)
  · exact (w _).mono (by decide)

/-- A departure leaves every pending pulse, which learns of it and stays otherwise as it was (R123). -/
@[simp] theorem departTrig_pulse (n : Link) (e : TrigEntry) :
    (departTrig n e).pulse = e.pulse.map fun p => { p with left := p.left ||| linkBit n } := by
  unfold departTrig
  simp only
  split
  · split <;> rfl
  · rfl

/-- A departure writes nothing of an entry that its frame does not own but the pending pulse (R123, R128). -/
theorem departTrig_other (n : Link) (e : TrigEntry) (h : e.owner ≠ some (.frame n)) :
    departTrig n e = { e with pulse := e.pulse.map (departPulse n) } := if_neg h

/-! ### A received stream (R181) -/

@[simp] theorem cutStream_start (m : LaneSet) (rest : List RxSymbol) :
    cutStream ({ symbol := .startOfCell, marked := m } :: rest)
      = ({ bytes := [], marked := 0 },
          { (cutStream rest).1 with marked := m ||| (cutStream rest).1.marked } :: (cutStream rest).2) := rfl

@[simp] theorem cutStream_data (b : Byte) (m : LaneSet) (rest : List RxSymbol) :
    cutStream ({ symbol := .data b, marked := m } :: rest)
      = ({ bytes := b :: (cutStream rest).1.bytes, marked := m ||| (cutStream rest).1.marked }, (cutStream rest).2) := rfl

/-- The segments of a stream that ends in one: every segment before the last, and the last once it is whole. -/
theorem arrivedCells_of_cut (stream : List RxSymbol) (cells : List Segment) (last : Segment)
    (h : (cutStream stream).2 = cells ++ [last]) :
    arrivedCells stream = cells ++ if wholeCell last.bytes then [last] else [] := by
  unfold arrivedCells
  rw [h]
  by_cases w : wholeCell last.bytes <;> simp [w]

/-! ### Lane Margin Unit -/

theorem startAdmission_within (n : Link) (s : State) : Within [.margins] s (startAdmission n s) := by
  unfold startAdmission
  split
  · exact modMargin_within n _ s
  · exact Within.refl _ s

theorem endRequested_within (n : Link) (rq : Requester) (p : Probe) (steps : Nat) (o : ProbeOutcome) (s : State) :
    Within [.ports, .clients, .outstanding, .margins] s (endRequested n rq p steps o s) :=
  (modMargin_within n _ s).andThen (notify_within .margin _ rq)

theorem abortProbe_within (n : Link) (o : ProbeOutcome) (s : State) :
    Within [.ports, .clients, .outstanding, .margins] s (abortProbe n o s) := by
  unfold abortProbe
  split
  · split
    · exact endRequested_within n _ _ _ o s
    · exact (modMargin_within n _ s).mono (by decide)
  · exact Within.refl _ s

theorem probeFollowsRoster_within (n : Link) (s : State) :
    Within [.ports, .clients, .outstanding, .margins] s (probeFollowsRoster n s) := by
  unfold probeFollowsRoster
  split
  · split
    · exact Within.refl _ s
    · exact abortProbe_within n _ s
  · exact Within.refl _ s

end Sys2Proof.Machine
end

