-- ==== Sys2Proof/Laws/Time.lean ====
section
/-! SUPPORT. What each shared operation of the Timebase Unit may touch. -/

namespace Sys2Proof.Machine

-- One declaration after another: the checks of the proofs by decide would otherwise wait for each other in many threads.
set_option Elab.async false

theorem refreshSchedule_within (n : Link) (s : State) : Within [.syncs] s (refreshSchedule n s) := by
  unfold refreshSchedule
  split
  · split
    · exact Within.refl _ s
    · exact modSync_within n _ s
  · exact modSync_within n _ s

theorem tbNotify_within (f : Timebase → Timebase) (s : State) :
    Within [.ports, .clients, .outstanding, .tb] s (notifyAll .time (s.modTb f)) :=
  (modTb_within f s).andThen (notifyAll_within .time _)

theorem switchSource_within (n : Link) (s : State) : Within sourced s (switchSource n s) :=
  (Within.andThen (ks := [.tb, .syncs]) (modTb_within _ s) (modSync_within n followerReset _)).andThen
    (notifyAll_within .time _)

theorem loseSource_within (s : State) : Within [.ports, .clients, .outstanding, .tb] s (loseSource s) :=
  tbNotify_within _ s

theorem compareSource_within (s : State) : Within sourced s (compareSource s) := by
  unfold compareSource
  split
  · split
    · exact Within.refl _ s
    · exact switchSource_within _ s
  · split
    · exact (loseSource_within s).mono (by decide)
    · exact Within.refl _ s
    · exact Within.refl _ s

theorem enterHoldover_within (s : State) : Within [.ports, .clients, .outstanding, .tb] s (enterHoldover s) :=
  tbNotify_within _ s

theorem missSource_within (s : State) : Within [.ports, .clients, .outstanding, .tb] s (missSource s) := by
  unfold missSource
  simp only
  split
  · exact (modTb_within _ s).andThen (enterHoldover_within _)
  · exact (modTb_within _ s).mono (by decide)

theorem countMissing_within (n : Link) (s : State) : Within sourced s (countMissing n s) := by
  unfold countMissing
  split
  · split
    · exact (missSource_within s).mono (by decide)
    · exact (modSync_within n _ s).mono (by decide)
    · exact Within.refl _ s
  · exact Within.refl _ s

/-- An exchange of a link that is not eligible is counted in no run (R89). -/
theorem countMissing_not_eligible (n : Link) (s : State) (h : eligible s n = false) : countMissing n s = s := by
  simp [countMissing, h]

theorem closeMissing_within (n : Link) (s : State) : Within sourced s (closeMissing n s) := by
  unfold closeMissing
  split
  · exact (modSync_within n _ s).andThen (countMissing_within n _)
  · exact Within.refl _ s

theorem leaveHoldover_within (s : State) : Within [.ports, .clients, .outstanding, .tb] s (leaveHoldover s) :=
  tbNotify_within _ s

theorem rescheduleLinks_within (s : State) : Within [.syncs] s (rescheduleLinks s) := by
  intro x hx; cases x <;> first | rfl | exact absurd (by decide) hx | exact fun _ => rfl

theorem holdsForward_within (s : State) : Within [.ports, .counters, .holds] s (holdsForward s) :=
  Within.foldl (fun s h => expireHold_within h s) _ s

theorem stepRack_within (theta : Int) (s : State) : Within stepped s (stepRack theta s) := by
  have w : ∀ (r : Time) (t : Timebase) (y : Vector LinkSync 6),
      Within [.rack, .tb, .syncs] s { s with rack := r, tb := t, syncs := y } := by
    intro r t y x hx; cases x <;> first | rfl | exact absurd (by decide) hx | exact fun _ => rfl
  have v : Within stepped s
      (notifyAll .time { s with
        rack := steppedRack s.rack theta
        tb := { clearRuns s.tb with permitUsed := true }
        syncs := s.syncs.map markStale }) := (w _ _ _).andThen (notifyAll_within .time _)
  unfold stepRack
  simp only
  split
  · exact (v.andThen (trigForward_within _) : Within stepped _ _).andThen (holdsForward_within _)
  · exact v

theorem testLock_within (s : State) : Within [.ports, .clients, .outstanding, .tb] s (testLock s) := by
  unfold testLock
  split
  · exact tbNotify_within _ s
  · split
    · exact tbNotify_within _ s
    · exact Within.refl _ s

theorem usedWhileLost_within (s : State) : Within [.ports, .clients, .outstanding, .tb] s (usedWhileLost s) := by
  unfold usedWhileLost
  simp only
  split
  · exact (modTb_within _ s).andThen (tbNotify_within _ _)
  · exact (modTb_within _ s).mono (by decide)

theorem useAsSource_within (theta : Int) (s : State) : Within stepped s (useAsSource theta s) := by
  have w : Within stepped s (testLock (s.modTb fun t => countUsed theta (steer theta t))) :=
    (modTb_within _ s).andThen (testLock_within _)
  unfold useAsSource
  split
  · exact (usedWhileLost_within s).mono (by decide)
  · exact (usedWhileLost_within s).mono (by decide)
  · split
    · exact stepRack_within theta s
    · exact w
  · exact w

theorem useAsFollower_within (n : Link) (number : BitVec 16) (theta : Int) (s : State) :
    Within [.ports, .syncs] s (useAsFollower n number theta s) :=
  (modSync_within n _ s).andThen (offerCell_within n _ _)

theorem applyReply_within (n : Link) (t : Stamps) (grade : Nat) (s : State) :
    Within sourced s (applyReply n t grade s) := by
  unfold applyReply
  simp only
  split
  · exact (Within.andThen (ks := sourced) (modSync_within n _ s) (notifyAll_within .link _)).andThen
      (compareSource_within _)
  · exact (modSync_within n _ s).andThen (compareSource_within _)

theorem useExchange_within (n : Link) (r : ReplyData) (t : Stamps) (s : State) :
    Within stepped s (useExchange n r t s) := by
  unfold useExchange
  simp only
  split
  · exact (applyReply_within n t r.grade s).andThen (useAsSource_within _ _)
  · exact (applyReply_within n t r.grade s).andThen (useAsFollower_within n _ _ _)

theorem takeReply_within (n : Link) (x : Exchange) (r : ReplyData) (t1 : Time) (s : State) :
    Within stepped s (takeReply n x r t1 s) := by
  unfold takeReply
  simp only
  split
  · exact useExchange_within n r _ s
  · exact (count_within n .syncDiscarded s).andThen (countMissing_within n _)

theorem matchReply_within (n : Link) (r : ReplyData) (s : State) : Within stepped s (matchReply n r s) := by
  have w := (count_within n .syncDiscarded s).mono (hs := stepped) (by decide)
  unfold matchReply
  split
  · split
    · split
      · simp only
        split
        · exact (modSync_within n _ s).andThen (takeReply_within n _ r _ _)
        · exact (modSync_within n _ s).andThen (count_within n .syncDiscarded _)
      · exact w
    · exact w
  · exact w

end Sys2Proof.Machine
end

