-- ==== Sys2Proof/Laws/Links.lean ====
section
/-! SUPPORT. What each shared operation of the Link Ports and the Frame Roster may touch. -/

namespace Sys2Proof.Machine

-- One declaration after another: the checks of the proofs by decide would otherwise wait for each other in many threads.
set_option Elab.async false

/-! ### The link-level reset -/

theorem resetPort_within (n : Link) (s : State) :
    Within [.ports, .service, .egress, .pool, .counters] s (resetPort n s) := by
  unfold resetPort
  simp only
  exact (Within.andThen (ks := [.ports, .service, .egress, .pool, .counters])
    (Within.andThen (ks := [.ports, .egress, .pool, .counters]) (flushLink_within n s) (modQueues_within n _ _))
    (modPort_within n clearPort _)).andThen (countBy_within n .trigMissed _ _)

theorem resetHolds_within (n : Link) (s : State) : Within [.ports, .holds] s (resetHolds n s) :=
  (holds_within _ s).andThen (releaseHolds_within _ _)

theorem resetSync_within (n : Link) (s : State) : Within sourced s (resetSync n s) :=
  (closeMissing_within n s).andThen (modSync_within n _ _)

theorem resetMargin_within (n : Link) (s : State) :
    Within [.ports, .clients, .outstanding, .margins] s (resetMargin n s) :=
  (abortProbe_within n _ s).andThen (modMargin_within n _ _)

theorem mapWrites_within (f : WriteRequest → WriteRequest) (s : State) :
    Within [.writing, .waiting] s (mapWrites f s) := by
  intro x hx; cases x <;> first | rfl | exact absurd (by decide) hx | exact fun _ => rfl

theorem resetRequests_within (n : Link) (s : State) :
    Within [.writing, .waiting, .clients, .flags, .outstanding] s (resetRequests n s) :=
  (Within.andThen (ks := [.writing, .waiting, .clients, .flags]) (mapWrites_within _ s)
    (modClient_within (.frame n) (fun c => { c with busy := false }) _)).andThen (setOutstanding_within n false _)

theorem linkReset_within (n : Link) (s : State) : Within wiped s (linkReset n s) :=
  Within.andThen (gs := wiped)
    (Within.andThen (gs := wiped) (Within.andThen (gs := wiped) (Within.andThen (resetPort_within n s)
      (resetHolds_within n _)) (resetSync_within n _)) (resetMargin_within n _)) (resetRequests_within n _)

/-! ### Transitions -/

theorem disownRoutes_within (n : Link) (s : State) : Within [.writing, .waiting, .routes] s (disownRoutes n s) := by
  have w : ∀ (r : Vector (Option Route) 64) (t : State), Within [.routes] t { t with routes := r } := by
    intro r t x hx; cases x <;> first | rfl | exact absurd (by decide) hx | exact fun _ => rfl
  exact (mapWrites_within _ s).andThen (w _ _)

/-- An operation made only where a condition holds. -/
theorem Within.ite {gs : List Part} {s t : State} {c : Prop} [Decidable c] (h : Within gs s t) :
    Within gs s (if c then t else s) := by
  split
  · exact h
  · exact Within.refl _ s

/-- An operation after another, made only where a condition holds. -/
theorem Within.thenIf {gs : List Part} {s t : State} {c : Prop} [Decidable c] (f : State → State)
    (h : Within gs s t) (g : ∀ u, Within gs u (f u)) : Within gs s (if c then f t else t) :=
  h.trans (Within.ite (g t))

theorem rosterEffects_within (n : Link) (old new : RosterState) (s : State) :
    Within moved s (rosterEffects n old new s) := by
  have a : Within moved s (probeFollowsRoster n (refreshSchedule n s)) :=
    (refreshSchedule_within n s).andThen (probeFollowsRoster_within n _)
  unfold rosterEffects
  simp only
  exact Within.thenIf (endTrigPulse n)
    (Within.thenIf (fun s => disownRoutes n (linkReset n s))
      (Within.thenIf compareSource
        (Within.thenIf (cancelTriggers n) a fun u => (cancelTriggers_within n u).mono (by decide))
        fun u => (compareSource_within u).mono (by decide))
      fun u => (linkReset_within n u).andThen (disownRoutes_within n _))
    fun u => (endTrigPulse_within n u).mono (by decide)

theorem moveEntry_within (n : Link) (st : RosterState) (f : RosterEntry → RosterEntry) (s : State) :
    Within moved s (moveEntry n st f s) := by
  have a : Within moved s (rosterEffects n (s.entry n).state st (s.modEntry n fun e => f (entryTo st e))) :=
    (modEntry_within n _ s).andThen (rosterEffects_within n _ _ _)
  unfold moveEntry
  simp only
  split
  · exact a
  · exact a.andThen (notifyAll_within .roster _)

theorem tellLinkDown_within (n : Link) (s : State) : Within moved s (tellLinkDown n s) := by
  unfold tellLinkDown
  split <;> first | exact moveEntry_within n _ _ s | exact Within.refl _ s

theorem beginTraining_within (n : Link) (s : State) : Within [.ports, .service] s (beginTraining n s) :=
  modPort_within n _ s

theorem tryTrain_within (n : Link) (s : State) : Within [.ports, .service] s (tryTrain n s) :=
  Within.ite (beginTraining_within n s)

theorem enterIdle_within (n : Link) (st : LinkState) (s : State) :
    Within [.ports, .service, .syncs] s (enterIdle n st s) :=
  (modPort_within n _ s).andThen (refreshSchedule_within n _)

theorem portIdle_within (n : Link) (st : LinkState) (s : State) :
    Within moved s (portIdle n st s) :=
  Within.andThen (gs := moved)
    (Within.andThen (gs := moved)
      (Within.andThen (gs := moved) (Within.andThen (ks := moved) (abortProbe_within n _ s) (enterIdle_within n st _))
        (notifyAll_within .link _))
      (linkReset_within n _)) (tellLinkDown_within n _)

theorem portDown_within (n : Link) (s : State) : Within moved s (portDown n s) := portIdle_within n .down s

theorem portOff_within (n : Link) (s : State) : Within moved s (portOff n s) := by
  unfold portOff
  split
  · exact Within.refl _ s
  · exact portIdle_within n .off s

theorem leaveOff_within (n : Link) (s : State) : Within moved s (leaveOff n s) :=
  Within.ite (Within.andThen (gs := moved)
    (Within.andThen (gs := moved) (Within.andThen (enterIdle_within n .down s) (linkReset_within n _))
      (tellLinkDown_within n _)) (tryTrain_within n _))

theorem toQuiesced_within (n : Link) (cause : Cause) (s : State) : Within moved s (toQuiesced n cause s) :=
  (moveEntry_within n _ _ s).trans (portOff_within n _)

theorem toEmpty_within (n : Link) (s : State) : Within moved s (toEmpty n s) :=
  (moveEntry_within n _ _ s).trans (leaveOff_within n _)

theorem toProbing_within (n : Link) (s : State) : Within moved s (toProbing n s) :=
  (moveEntry_within n _ _ s).trans (Within.ite ((startAdmission_within n _).mono (by decide)))

theorem toDetected_within (n : Link) (s : State) : Within moved s (toDetected n s) :=
  (moveEntry_within n _ _ s).trans (Within.ite (toProbing_within n _))

theorem drainTest_within (n : Link) (s : State) : Within moved s (drainTest n s) :=
  Within.ite (toQuiesced_within n _ s)

theorem toDraining_within (n : Link) (s : State) : Within moved s (toDraining n s) :=
  (moveEntry_within n .draining _ s).trans (drainTest_within n _)

theorem toActive_within (n : Link) (s : State) : Within moved s (toActive n s) := by
  unfold toActive
  simp only
  split
  · exact (moveEntry_within n _ _ s).trans ((modEntry_within n _ _).andThen (toDraining_within n _))
  · exact moveEntry_within n _ _ s

theorem toIdentifying_within (n : Link) (s : State) : Within moved s (toIdentifying n s) := by
  unfold toIdentifying
  exact moveEntry_within n _ _ s

theorem toFaulted_within (n : Link) (cause : Cause) (s : State) : Within moved s (toFaulted n cause s) :=
  moveEntry_within n _ _ s

theorem tellLinkUp_within (n : Link) (s : State) : Within moved s (tellLinkUp n s) := by
  unfold tellLinkUp
  split <;> first | exact toProbing_within n s | exact Within.refl _ s

/-! ### Presence and swap requests -/

theorem presenceFalls_within (n : Link) (s : State) : Within moved s (presenceFalls n s) := by
  have a : Within moved s (s.modEntry n fun e => { e with presence := false }) :=
    (modEntry_within n _ s).mono (by decide)
  unfold presenceFalls
  simp only
  split
  · exact a
  · exact a.trans (toEmpty_within n _)

theorem presenceRises_within (n : Link) (s : State) : Within moved s (presenceRises n s) := by
  have a : Within moved s (s.modEntry n fun e => { e with presence := true }) :=
    (modEntry_within n _ s).mono (by decide)
  exact a.trans (Within.ite (toDetected_within n _))

theorem samplePresence_within (n : Link) (s : State) : Within moved s (samplePresence n s) := by
  unfold samplePresence
  split
  · exact presenceRises_within n s
  · exact presenceFalls_within n s
  · exact Within.refl _ s
  · exact Within.refl _ s

theorem swapRequested_within (n : Link) (s : State) : Within moved s (swapRequested n s) := by
  unfold swapRequested
  split <;> first
    | exact toDraining_within n s
    | exact (modEntry_within n _ s).mono (by decide)
    | exact Within.refl _ s

/-! ### UP and RECOVERY -/

theorem portUp_within (n : Link) (lanes : LaneSet) (s : State) : Within moved s (portUp n lanes s) := by
  have a : Within [.ports, .service, .syncs] s (refreshSchedule n (s.modPort n fun p =>
      { p with state := .up, lanes := lanes, failCount := 0, errRun := 0, limit := none })) :=
    (modPort_within n _ s).andThen (refreshSchedule_within n _)
  exact Within.andThen (gs := moved)
    (Within.andThen (gs := moved) (a.andThen (notifyAll_within .link _)) (tellLinkUp_within n _)) (startNext_within n _)

theorem enterRecovery_within (n : Link) (s : State) : Within moved s (enterRecovery n s) := by
  have a : ∀ t, Within moved t (abandonBlock n ((t.modPort n (portToRecovery (t.osc + recoveryLimitNs))).count n
      .recoveries)) := fun t =>
    (Within.andThen (ks := moved) (modPort_within n _ t) (count_within n .recoveries _)).andThen (abandonBlock_within n _)
  have b : ∀ t, Within moved t (closeMissing n (notifyAll .link t)) := fun t =>
    (notifyAll_within .link t).andThen (closeMissing_within n _)
  unfold enterRecovery
  simp only
  refine Within.trans (((abortProbe_within n .abortLink s).mono (by decide)).trans ((a _).trans (b _))) ?_
  exact Within.ite (drainTest_within n _)

theorem recoverUp_within (n : Link) (lanes : LaneSet) (s : State) : Within moved s (recoverUp n lanes s) := by
  have a : Within moved s (notifyAll .link (s.modPort n fun p =>
      { p with state := .up, lanes := lanes, errRun := 0, limit := none })) :=
    (modPort_within n _ s).andThen (notifyAll_within .link _)
  unfold recoverUp
  simp only
  exact (Within.thenIf (startAdmission n) a fun u => (startAdmission_within n u).mono (by decide)).trans
    ((startNext_within n _).mono (by decide))

end Sys2Proof.Machine
end

