-- ==== Sys2Proof/Laws/PerInstr.lean ====
section
/-! SUPPORT. The per-constructor family `RecordFits`: the record of a well-formed request command of a known kind has a
kind of Table 11.4 (1) and a count of argument bytes that its 2-byte length field holds (Table 11.3 (1)). -/

namespace Sys2Proof.Laws.RecordFits

open Sys2Proof Sys2Proof.Machine

/-- What holds of each command, as syntax. -/
def Statement (i : Instr) : Prop :=
  ∀ (q : Request) (kind : Byte) (clear : Bool), requestOf i = some (q, kind, clear) → i.wellFormed = true →
    knownKinds.contains kind = true ∧ q.args.length < 65536

theorem length_of_fits {q : Request} (h : requestFits q = true) : q.args.length < 65536 := by
  unfold requestFits at h
  split at h <;> simp_all [maxBody]
  omega

theorem of_none {i : Instr} (h : requestOf i = none) : Statement i := by
  intro q kind clear hq
  rw [h] at hq
  cases hq

theorem of_some {i : Instr} {q : Request} {kind : Byte} {clear : Bool} (h : requestOf i = some (q, kind, clear))
    (hk : knownKinds.contains kind = true) (hw : i.wellFormed = true → requestFits q = true) : Statement i := by
  intro q' kind' clear' hq wf
  rw [h] at hq
  cases hq
  exact ⟨hk, length_of_fits (hw wf)⟩

theorem resetAssert : Statement .resetAssert := of_none rfl
theorem resetRelease : Statement .resetRelease := of_none rfl
theorem switchInitialisationComplete : Statement .switchInitialisationComplete := of_none rfl
theorem presentFall (n : Link) (edgeFirst : Bool) : Statement (.presentFall n edgeFirst) := of_none rfl
theorem presentRise (n : Link) : Statement (.presentRise n) := of_none rfl
theorem swapRequest (n : Link) (edge : Edge) : Statement (.swapRequest n edge) := of_none rfl
theorem trainingActivity (n : Link) (seen : Bool) : Statement (.trainingActivity n seen) := of_none rfl
theorem trainingAllAligned (n : Link) : Statement (.trainingAllAligned n) := of_none rfl
theorem trainingLimitExpiry (n : Link) (aligned : LaneSet) : Statement (.trainingLimitExpiry n aligned) := of_none rfl
theorem alignmentLost (n : Link) (lane : Lane) : Statement (.alignmentLost n lane) := of_none rfl
theorem recoveryAllAligned (n : Link) : Statement (.recoveryAllAligned n) := of_none rfl
theorem recoveryLimitExpiry (n : Link) (aligned : LaneSet) : Statement (.recoveryLimitExpiry n aligned) := of_none rfl
theorem cellErrored (n : Link) (marked : LaneSet) : Statement (.cellErrored n marked) := of_none rfl
theorem unknownKindCell (n : Link) : Statement (.unknownKindCell n) := of_none rfl
theorem sampleCellReceived (n : Link) (cell : RxCell) : Statement (.sampleCellReceived n cell) := of_none rfl
theorem syncReplyReceived (n : Link) (cell : RxCell) : Statement (.syncReplyReceived n cell) := of_none rfl
theorem triggerCellReceived (n : Link) (cell : RxCell) : Statement (.triggerCellReceived n cell) := of_none rfl
theorem identReceived (n : Link) (cell : RxCell) : Statement (.identReceived n cell) := of_none rfl
theorem malformedControlCell (n : Link) (body : List Byte) : Statement (.malformedControlCell n body) := of_none rfl
theorem cellTransmissionComplete (n : Link) : Statement (.cellTransmissionComplete n) := of_none rfl
theorem dwellEnd (n : Link) : Statement (.dwellEnd n) := of_none rfl
theorem identityWaitExpiry (n : Link) : Statement (.identityWaitExpiry n) := of_none rfl
theorem drainLimitExpiry (n : Link) : Statement (.drainLimitExpiry n) := of_none rfl
theorem exchangeDue (n : Link) : Statement (.exchangeDue n) := of_none rfl
theorem replyLimitExpiry (n : Link) : Statement (.replyLimitExpiry n) := of_none rfl
theorem holdoverLimitExpiry : Statement .holdoverLimitExpiry := of_none rfl
theorem sendEvent (i : TrigIx) : Statement (.sendEvent i) := of_none rfl
theorem panelEvent (i : TrigIx) : Statement (.panelEvent i) := of_none rfl
theorem pulseEnd (line : PulseLine) : Statement (.pulseEnd line) := of_none rfl
theorem trigEdge (n : Link) (edge : Edge) : Statement (.trigEdge n edge) := of_none rfl
theorem triginEdge (edge : Edge) : Statement (.triginEdge edge) := of_none rfl
theorem holdExpiry (stream : StreamId) (egress : Link) : Statement (.holdExpiry stream egress) := of_none rfl
theorem agingTimerExpiry : Statement .agingTimerExpiry := of_none rfl
theorem routeWriteStart : Statement .routeWriteStart := of_none rfl
theorem routeWriteComplete : Statement .routeWriteComplete := of_none rfl
theorem agingSweepStart : Statement .agingSweepStart := of_none rfl
theorem agingSweepComplete : Statement .agingSweepComplete := of_none rfl
theorem rcpReadTransaction (part : ReadPart) : Statement (.rcpReadTransaction part) := of_none rfl
theorem rcpTransactionDiscarded (bytes : List Byte) : Statement (.rcpTransactionDiscarded bytes) := of_none rfl
theorem badkind (q : Request) (kind : Byte) : Statement (.badkind q kind) := of_none rfl
theorem linkRead (q : Request) : Statement (.linkRead q) := of_some rfl (by decide) id
theorem linkEnable (q : Request) : Statement (.linkEnable q) := of_some rfl (by decide) id
theorem linkRetrain (q : Request) : Statement (.linkRetrain q) := of_some rfl (by decide) id
theorem linkMarginStart (q : Request) : Statement (.linkMarginStart q) :=
  of_some rfl (by decide) fun h => (Bool.and_eq_true_iff.mp h).1
theorem linkMarginCancel (q : Request) : Statement (.linkMarginCancel q) :=
  of_some rfl (by decide) fun h => (Bool.and_eq_true_iff.mp h).1
theorem marginResult (q : Request) : Statement (.marginResult q) := of_some rfl (by decide) id
theorem rosterRead (q : Request) : Statement (.rosterRead q) := of_some rfl (by decide) id
theorem frameAdmit (q : Request) : Statement (.frameAdmit q) := of_some rfl (by decide) id
theorem frameRelease (q : Request) : Statement (.frameRelease q) := of_some rfl (by decide) id
theorem frameRestore (q : Request) : Statement (.frameRestore q) := of_some rfl (by decide) id
theorem frameEvict (q : Request) : Statement (.frameEvict q) := of_some rfl (by decide) id
theorem rosterConfig (q : Request) : Statement (.rosterConfig q) := of_some rfl (by decide) id
theorem lineRead (q : Request) : Statement (.lineRead q) := of_some rfl (by decide) id
theorem lineWrite (q : Request) : Statement (.lineWrite q) := of_some rfl (by decide) id
theorem lineMode (q : Request) : Statement (.lineMode q) := of_some rfl (by decide) id
theorem lineHoldPreload (q : Request) : Statement (.lineHoldPreload q) :=
  of_some rfl (by decide) fun h => (Bool.and_eq_true_iff.mp h).1
theorem lineHoldSample (q : Request) : Statement (.lineHoldSample q) :=
  of_some rfl (by decide) fun h => (Bool.and_eq_true_iff.mp h).1
theorem timeRead (q : Request) : Statement (.timeRead q) := of_some rfl (by decide) id
theorem timeSource (q : Request) : Statement (.timeSource q) := of_some rfl (by decide) id
theorem timeConfig (q : Request) : Statement (.timeConfig q) := of_some rfl (by decide) id
theorem syncRead (q : Request) : Statement (.syncRead q) := of_some rfl (by decide) id
theorem trigArm (q : Request) : Statement (.trigArm q) := of_some rfl (by decide) fun h => (Bool.and_eq_true_iff.mp h).1
theorem trigArmAny (q : Request) : Statement (.trigArmAny q) :=
  of_some rfl (by decide) fun h => (Bool.and_eq_true_iff.mp h).1
theorem trigCancel (q : Request) : Statement (.trigCancel q) := of_some rfl (by decide) id
theorem trigRelease (q : Request) : Statement (.trigRelease q) := of_some rfl (by decide) id
theorem trigRead (q : Request) : Statement (.trigRead q) := of_some rfl (by decide) id
theorem trigConfig (q : Request) : Statement (.trigConfig q) := of_some rfl (by decide) id
theorem capturePeek (q : Request) : Statement (.capturePeek q) := of_some rfl (by decide) id
theorem capturePop (q : Request) : Statement (.capturePop q) := of_some rfl (by decide) id
theorem routeSet (q : Request) : Statement (.routeSet q) := of_some rfl (by decide) id
theorem routeClear (q : Request) : Statement (.routeClear q) := of_some rfl (by decide) id
theorem routeRead (q : Request) : Statement (.routeRead q) := of_some rfl (by decide) id
theorem routeFirst (q : Request) : Statement (.routeFirst q) := of_some rfl (by decide) id
theorem routeNext (q : Request) : Statement (.routeNext q) := of_some rfl (by decide) id
theorem streamConfig (q : Request) : Statement (.streamConfig q) := of_some rfl (by decide) id
theorem accessSetWrite (q : Request) : Statement (.accessSetWrite q) :=
  of_some rfl (by decide) fun h => (Bool.and_eq_true_iff.mp h).1
theorem accessSetEmpty (q : Request) : Statement (.accessSetEmpty q) :=
  of_some rfl (by decide) fun h => (Bool.and_eq_true_iff.mp h).1
theorem accessRead (q : Request) : Statement (.accessRead q) := of_some rfl (by decide) id
theorem counterRead (q : Request) : Statement (.counterRead q) :=
  of_some rfl (by decide) fun h => (Bool.and_eq_true_iff.mp h).1
theorem counterReadClear (q : Request) : Statement (.counterReadClear q) :=
  of_some rfl (by decide) fun h => (Bool.and_eq_true_iff.mp h).1
theorem noticeRead (q : Request) : Statement (.noticeRead q) := of_some rfl (by decide) id
theorem noticeMask (q : Request) : Statement (.noticeMask q) := of_some rfl (by decide) id
theorem hubStatus (q : Request) : Statement (.hubStatus q) := of_some rfl (by decide) id
theorem hubReset (q : Request) : Statement (.hubReset q) := of_some rfl (by decide) id
theorem symbolError (n : Link) (lane : Lane) : Statement (.symbolError n lane) := of_none rfl

end Sys2Proof.Laws.RecordFits
end

