-- ==== Sys2Proof/Laws/Requests.lean ====
section
/-! SUPPORT. What each shared operation of the Request Unit and of the table write unit may touch, and what a request
that passes, or fails, the checks of R168 comes to. -/

namespace Sys2Proof.Machine

-- One declaration after another: the checks of the proofs by decide would otherwise wait for each other in many threads.
set_option Elab.async false

/-! ### The port (R170) -/

@[simp] theorem RcpPort.write_buffer (p : RcpPort) (r : Response) :
    (p.write r).buffer = some { r with prevUnread := p.buffer.isSome && !p.readMark } := rfl
@[simp] theorem RcpPort.write_readMark (p : RcpPort) (r : Response) : (p.write r).readMark = false := rfl
@[simp] theorem RcpPort.write_framing (p : RcpPort) (r : Response) : (p.write r).framing = p.framing := rfl
@[simp] theorem RcpPort.write_held (p : RcpPort) (r : Response) : (p.write r).held = p.held := rfl
@[simp] theorem RcpPort.write_shiftedOut (p : RcpPort) (r : Response) : (p.write r).shiftedOut = p.shiftedOut := rfl
@[simp] theorem RcpPort.write_reading (p : RcpPort) (r : Response) : (p.write r).reading = p.reading := rfl
@[simp] theorem RcpPort.risen_buffer (p : RcpPort) (b : Byte) (k : Nat) : (p.risen b k).buffer = p.buffer := rfl
@[simp] theorem RcpPort.risen_held (p : RcpPort) (b : Byte) (k : Nat) : (p.risen b k).held = p.held := rfl
@[simp] theorem RcpPort.risen_framing (p : RcpPort) (b : Byte) (k : Nat) : (p.risen b k).framing = .awaitingFall := rfl
@[simp] theorem RcpPort.risen_readMark (p : RcpPort) (b : Byte) (k : Nat) :
    (p.risen b k).readMark = (p.readMark || shiftedWhole p k) := rfl
@[simp] theorem RcpPort.risen_shiftedOut (p : RcpPort) (b : Byte) (k : Nat) :
    (p.risen b k).shiftedOut = spiBytes b p k := rfl
@[simp] theorem holdsBack_frame (s : State) (n : Link) : s.holdsBack (.frame n) = false := rfl
@[simp] theorem holdsBack_rcp (s : State) : s.holdsBack .rcp = s.rcp.reading := rfl

/-- A read transaction is in progress just while the framing holds its status byte. -/
theorem RcpPort.reading_iff (p : RcpPort) : p.reading = true ↔ ∃ b, p.framing = .reading b := by
  unfold RcpPort.reading; split <;> simp_all

/-! ### Responses -/

theorem rcp_within (p : RcpPort) (s : State) : Within [.ports, .rcp] s { s with rcp := p } := by
  intro x hx; cases x <;> first | rfl | exact absurd (by decide) hx | exact fun _ => rfl

theorem respond_within (rq : Requester) (r : Response) (s : State) : Within [.ports, .rcp] s (respond rq r s) := by
  cases rq with
  | rcp => exact rcp_within _ s
  | frame n => exact (offerCell_within n _ s).mono (by decide)

theorem answer_within (rq : Requester) (tag kind : Byte) (status : Status) (e : Bool) (results : List Byte) (s : State) :
    Within [.ports, .rcp] s (answer rq tag kind status e results s) := respond_within rq _ s

theorem setBusy_within (rq : Requester) (b : Bool) (s : State) : Within [.clients, .flags] s (setBusy rq b s) :=
  modClient_within rq _ s

theorem endRequest_within (rq : Requester) (tag kind : Byte) (status : Status) (e : Bool) (results : List Byte)
    (s : State) : Within [.ports, .clients, .flags, .rcp] s (endRequest rq tag kind status e results s) := by
  unfold endRequest
  split
  · have a := answer_within rq tag kind status e results s
    dsimp only
    split
    · exact a.mono (by decide)
    · exact a.andThen (setBusy_within rq false _)
  · exact Within.refl _ s

/-- The beginning and the end of a read transaction touch the port, and the in-progress flag of a request whose response
was held. -/
theorem beginRead_within (s : State) : Within [.ports, .rcp] s (beginRead s) := by
  unfold beginRead
  split
  · exact rcp_within _ s
  · exact Within.refl _ s

theorem endRead_within (count : Nat) (s : State) : Within [.ports, .clients, .flags, .rcp] s (endRead count s) := by
  unfold endRead
  split
  · exact Within.refl _ s
  · dsimp only
    split
    · exact (rcp_within _ s).mono (by decide)
    · exact (rcp_within _ s).andThen (setBusy_within .rcp false _)

/-! ### Requests -/

/-- A request may touch what its body touches, besides what every request does. -/
theorem takeRequest_within {gs : List Part} (q : Request) (kind : Byte) (clear : Bool)
    (body : State → State × Reply) (h : ∀ s, Within gs s (body s).1) (s : State) :
    Within (gs ++ asked) s (takeRequest q kind clear body s) := by
  have sub : asked ⊆ gs ++ asked := List.subset_append_right gs asked
  have a : ∀ st, Within (gs ++ asked) s (answer q.requester q.tag kind st false [] s) := fun st =>
    ((answer_within q.requester q.tag kind st false [] s).mono (hs := asked) (by decide)).mono sub
  have b : Within (gs ++ asked) s (body (setBusy q.requester true s)).1 :=
    (((setBusy_within q.requester true s).mono (hs := asked) (by decide)).mono sub).trans
      ((h _).mono (List.subset_append_left gs asked))
  unfold takeRequest
  split
  · exact a .busy
  · split
    · exact a _
    · split
      · rename_i t st e r heq
        rw [heq] at b
        exact b.trans (((endRequest_within q.requester q.tag kind st e r t).mono (hs := asked) (by decide)).mono sub)
      · rename_i t heq
        rw [heq] at b
        exact b

theorem receive_within {gs : List Part} (n : Link) (f : State → State) (h : ∀ s, Within gs s (f s)) (s : State) :
    Within (gs ++ asked) s (receive n f s) := by
  have a : Within (gs ++ asked) s ((s.count n .cellsIn).modPort n fun p => { p with errRun := 0 }) :=
    ((Within.andThen (ks := [.counters, .ports, .service]) (count_within n .cellsIn s) (modPort_within n _ _)).mono
      (hs := asked) (by decide)).mono (List.subset_append_right gs asked)
  exact Within.ite (a.trans ((h _).mono (List.subset_append_left gs asked)))

/-- A request record arrives and is taken. -/
theorem serve_within {gs : List Part} (kind : Byte) (clear : Bool) (q : Request) (body : State → State × Reply)
    (h : ∀ s, Within gs s (body s).1) (s : State) : Within (gs ++ asked) s (serve kind clear q body s) := by
  unfold serve arrive
  split
  · split
    · exact Within.refl _ s
    · exact takeRequest_within q kind clear body h s
  · refine (receive_within _ _ (takeRequest_within q kind clear body h) s).mono ?_
    intro x hx
    simp only [List.mem_append] at hx ⊢
    tauto

/-- A body that names a link does no more than what it does once its checks have passed. -/
theorem onLink_within {gs : List Part} (q : Request) (allowed : State → Requester → Space → Nat → Bool) (sp : Space)
    (body : Link → List Byte → State → State × Reply) (h : ∀ n rest s, Within gs s (body n rest s).1) (s : State) :
    Within gs s (onLink q allowed sp body s).1 := by
  unfold onLink
  split
  · exact Within.refl gs s
  · split
    · exact h _ _ s
    · exact Within.refl gs s

theorem onLines_within {gs : List Part} (q : Request) (allowed : State → Requester → Space → Nat → Bool)
    (body : Fin 7 → List Byte → State → State × Reply) (h : ∀ i rest s, Within gs s (body i rest s).1) (s : State) :
    Within gs s (onLines q allowed body s).1 := by
  unfold onLines
  split
  · exact Within.refl gs s
  · split
    · exact h _ _ s
    · exact Within.refl gs s

/-! ### The table write unit -/

theorem endWrite_within (w : WriteRequest) (kind : Byte) (status : Status) (results : List Byte) (s : State) :
    Within [.ports, .clients, .flags, .rcp] s (endWrite w kind status results s) := by
  unfold endWrite
  split
  · exact Within.refl _ s
  · exact endRequest_within _ _ _ _ _ _ s

theorem joinWrites_within (w : WaitingWrite) (s : State) : Within [.waiting] s (joinWrites w s).1 := by
  intro x hx; cases x <;> first | rfl | exact absurd (by decide) hx | exact fun _ => rfl

theorem writing_within (w : Option ActiveWrite) (s : State) : Within [.writing] s { s with writing := w } := by
  intro x hx; cases x <;> first | rfl | exact absurd (by decide) hx | exact fun _ => rfl

theorem startSet_within (w : WriteRequest) (r : RouteSpec) (s : State) :
    Within [.writing, .ports, .clients, .flags, .rcp] s (startSet w r s) := by
  unfold startSet
  split <;> split <;> first
    | exact (writing_within _ s).mono (by decide)
    | exact (endWrite_within w _ _ _ s).mono (by decide)

theorem startClear_within (w : WriteRequest) (i : RouteIx) (s : State) :
    Within [.writing, .ports, .clients, .flags, .rcp] s (startClear w i s) := by
  unfold startClear
  split
  · exact (endWrite_within w _ _ _ s).mono (by decide)
  · split
    · exact (writing_within _ s).mono (by decide)
    · exact (endWrite_within w _ _ _ s).mono (by decide)

theorem notifyOther_within (rq : Requester) (owner : Option Requester) (s : State) :
    Within told s (notifyOther rq owner s) := by
  unfold notifyOther
  split
  · exact Within.refl _ s
  · exact notifyOwner_within .route owner s

theorem unroute_within (i : RouteIx) (r : Option Route) (p : HoldEntry → Bool) (s : State) :
    Within [.routes, .holds, .ports] s (releaseHolds p (s.setRoute i r)) :=
  (setRoute_within i r s).andThen (releaseHolds_within p _)

theorem completeReplace_within (w : WriteRequest) (r : RouteSpec) (i : RouteIx) (s : State) :
    Within written s (completeReplace w r i s) := by
  unfold completeReplace
  split
  · exact (Within.andThen (ks := written) (unroute_within i _ _ s) (notifyOther_within _ _ _)).andThen
      (endWrite_within w _ _ _ _)
  · exact Within.refl _ s

theorem completeCreate_within (w : WriteRequest) (r : RouteSpec) (i : RouteIx) (s : State) :
    Within written s (completeCreate w r i s) := (setRoute_within i _ s).andThen (endWrite_within w _ _ _ _)

theorem completeClear_within (w : WriteRequest) (i : RouteIx) (s : State) : Within written s (completeClear w i s) := by
  unfold completeClear
  split
  · exact (Within.andThen (ks := written) (unroute_within i _ _ s) (notifyOther_within _ _ _)).andThen
      (endWrite_within w _ _ _ _)
  · exact Within.refl _ s

theorem sweepEntry_within (entries : BitVec 64) (s : State) (i : RouteIx) :
    Within [.routes, .holds, .ports, .clients, .outstanding] s (sweepEntry entries s i) := by
  unfold sweepEntry
  split
  · split
    · split
      · exact (setRoute_within i _ s).mono (by decide)
      · exact (unroute_within i _ _ s).andThen (notifyOwner_within .route _ _)
    · exact Within.refl _ s
  · exact Within.refl _ s

theorem completeSweep_within (entries : BitVec 64) (s : State) :
    Within [.routes, .holds, .ports, .clients, .outstanding] s (completeSweep entries s) :=
  Within.foldl (sweepEntry_within entries) _ s

theorem walkFrom_within (rq : Requester) (cursor : Nat) (s : State) :
    Within [.clients, .flags] s (walkFrom rq cursor s).1 := by
  unfold walkFrom
  split
  · exact modClient_within rq _ s
  · exact modClient_within rq _ s

/-! ### ACCESS_SET (R172) -/

/-- An entry that ACCESS_SET writes has its first index not above its last, and both within its space (R172). -/
theorem accessArgs_indices (bs : List Byte) (e : AccessEntry) (h : accessArgs bs = some e) :
    e.first ≤ e.last ∧ (e.space = .all ∨ e.last ≤ spaceMax e.space) := by
  simp only [accessArgs, Option.bind_eq_bind, Option.bind_eq_some_iff, Option.ite_none_right_eq_some,
    Option.some.injEq] at h
  obtain ⟨_, _, _, _, _, _, _, _, _, _, _, _, c, rfl⟩ := h
  exact ⟨c.1, c.2.1⟩

end Sys2Proof.Machine
end

