-- ==== Sys2Proof/Tests/Slice0.lean ====
section
/-! SUPPORT. Tests by named theorems: ill-formed commands that the check refuses, worked examples of the manual, and for
every statement with hypotheses a concrete state and operands that meet them together (`met_` and its name; one conjunct
for each clause). Expected values come from the manual or are reckoned by hand from it. -/

namespace Sys2Proof.Tests

-- One declaration after another: the checks of the proofs by decide would otherwise wait for each other in many threads.
set_option Elab.async false

open Sys2Proof.Machine

/-! ### Small states -/

def rcp (args : List Byte) : Request := { requester := .rcp, tag := 7, args := args }

def fr (n : Link) (args : List Byte) : Request := { requester := .frame n, tag := 7, args := args }

def ident : Identity := { serial := 1, cls := 0, grade := 1, slots := 20 }

def upPort : LinkPort := { LinkPort.fullReset with state := .up, lanes := 15, activity := true }

def activeEntry : RosterEntry :=
  { RosterEntry.fullReset with
    state := .active, identity := some ident, epoch := 1, admittedAt := some 0, presence := true }

def running : Schedule := { lastDue := none, nextDue := 1001000 }

/-- Every link UP with an ACTIVE frame of grade 1, the source link 0 LOCKED, 1 ms after reset. -/
def serving : State :=
  { State.reset with
    osc := 1000000
    rack := 1000000
    tb := { Timebase.fullReset with source := .link 0, state := .locked }
    syncs := Vector.replicate 6 { LinkSync.fullReset with schedule := some running }
    ports := Vector.replicate 6 upPort
    roster := Vector.replicate 6 activeEntry
    lines := Vector.replicate 6 { LinkLines.fullReset with presentPin := true }
    ready := true
    agingEnds := some 60000000000 }

/-- The same with entry `n` in a state. -/
def entryIn (n : Link) (st : RosterState) : State := serving.modEntry n fun e => { e with state := st }

/-- The same with port `n` in a state, its limit ending at 1000005 ns. -/
def portIn (n : Link) (st : LinkState) : State :=
  serving.modPort n fun p => { p with state := st, limit := some 1000005 }

/-- The same with an entry whose link keeps its identity and two timers. -/
def identifying : State :=
  serving.modEntry 5 fun e => { e with state := .identifying, identity := none, identWait := some 1000009 }

def pendingEntry : State := serving.modEntry 5 fun e => { e with state := .pending, policy := .manual }

def draining : State :=
  (serving.modEntry 5 fun e => { e with state := .draining, drainEnds := some 1000009 }).modQueues 5 fun q =>
    { q with normal := List.replicate 24 0 }

/-- Frame 5 quiesced, its port OFF. -/
def quiesced : State := (entryIn 5 .quiesced).modPort 5 fun p => { p with state := .off, lanes := 0 }

/-- No frame has any permission. -/
def locked : State := { serving with access := Vector.replicate 8 none }

/-- Each frame may read all and modify nothing. -/
def readOnly : State :=
  { serving with access := locked.access.set 7 (some { AccessEntry.everything with modify := 0 }) }

/-- The last step of a probe that the RCP started on lane 3. -/
def lastProbe : Probe :=
  { starter := .request .rcp, lane := 3, kind := .timing, direction := .plus, stepLimit := 31, errorLimit := 0,
    step := 31, errors := 0, lastWithin := 30, dwellEnds := 2000000 }

/-- The last step of an admission probe. -/
def lastAdmission : Probe := { lastProbe with starter := .admission }

def withProbe (p : Probe) (a : Option Admission) : State :=
  serving.modMargin 5 fun m => { m with probe := some p, admission := a }

def figure : Figure := { steps := 6, errors := 0 }

def openExchange : Exchange := { number := 9, t1 := some 999000, limit := some 1000009, stale := false }

def exchanging (n : Link) (x : Exchange) (s : State) : State := s.modSync n fun l => { l with exchange := some x }

/-- A reply to `openExchange`, of grade 2: t2 and t3 are 999500, so with t4 = 1000000 R is 1000 and d 500. -/
def replyCell : RxCell :=
  { flags := 0x0C, stream := 0, sequence := 9, stamp := 0,
    body := [0, 0, 0, 0, 0, 0x0F, 0x40, 0x4C, 0, 0, 0, 0, 0, 0x0F, 0x40, 0x4C, 2, 0, 0, 0] }

/-- The same 15000 ns later, beyond the step threshold. -/
def lateReply : RxCell :=
  { replyCell with body := [0, 0, 0, 0, 0, 0x0F, 0x7A, 0xE4, 0, 0, 0, 0, 0, 0x0F, 0x7A, 0xE4, 2, 0, 0, 0] }

/-- R90: a reply with R = 10001, one above RTT_MAX. -/
def slowReply : RxCell :=
  { replyCell with body := [0, 0, 0, 0, 0, 0x0F, 0x65, 0x69, 0, 0, 0, 0, 0, 0x0F, 0x42, 0x40, 2, 0, 0, 0] }

/-- R90: a reply with R = 1000, whose offset is 2^40 ns. -/
def farReply : RxCell :=
  { replyCell with body := [0, 0, 1, 0, 0, 0x0F, 0x40, 0x4C, 0, 0, 1, 0, 0, 0x0F, 0x40, 0x4C, 2, 0, 0, 0] }

def cellOf (body : List Byte) : RxCell := { flags := 0, stream := 1, sequence := 1, stamp := 1000, body := body }

/-- The identity record of `ident`. -/
def identCell : RxCell := cellOf [0, 0, 0, 0, 0, 0, 0, 1, 0, 1, 20, 0]

/-- A block of stream 1 with one 16-bit sample. -/
def blockCell : RxCell := cellOf [0, 0, 0, 1, 0xAB, 0xCD]

def block : Slot :=
  { stream := 1, sequence := 1, stamp := 1000, timed := false, width := false, count := 1, payload := [0xAB, 0xCD],
    refs := 0 }

/-- A route of stream 1 from link 5 to links 0 to 4. -/
def route1 : Route :=
  { stream := 1, source := 5, egress := 31, kind := .dynamic, cls := .normal, gate := none, used := false,
    owner := some (.frame 5) }

def routed (r : Route) : State := serving.setRoute 3 (some r)

def spec1 : RouteSpec := { stream := 1, source := 5, egress := 31, kind := .static, cls := .normal, gate := none }

def write1 : WriteRequest :=
  { requester := .frame 5, tag := 7, modify := 1#64 <<< 63, orphaned := false, departed := false }

def hold1 : HoldEntry := { stream := 1, source := 5, egress := 4, expiry := 1000000 }

def capture1 : Capture :=
  { number := 1, origin := .trigin, source := .panel, time := 1, uncompensated := false, unlocked := true,
    intended := none, code := none }

def captured1 : State := { serving with captures := [capture1], captureCount := 1 }

/-- A trigger entry of the RCP at 1000000 with period 20000 = LEAD and three instances. -/
def armed1 : TrigEntry :=
  { TrigEntry.free with
    state := .armed, owner := some .rcp, compare := 1000000, period := 20000, repeats := 3, targets := 127 }

/-- An entry that waits on link 5, with a delay one above LEAD. -/
def waiting1 : TrigEntry :=
  { TrigEntry.free with
    state := .waiting, owner := some .rcp, mode := .onCapture, source := some (.link 5), delay := some 20001 }

def withTrig (e : TrigEntry) : State := serving.modTrig 15 fun _ => e

/-- TRIG_ARM after the index: AT_TIME 1020001, one more than rack time plus LEAD; all targets, code 15. -/
def armBytes : List Byte :=
  [0] ++ [0, 0, 0, 0, 0, 0x0F, 0x90, 0x61] ++ [0] ++ List.replicate 8 0 ++ List.replicate 8 0 ++ [0, 1, 127, 15]

def armArgs1 : ArmArgs :=
  { mode := .atTime, compare := 1020001, source := none, delay := none, period := 0, repeats := 1, targets := 127,
    code := 15 }

/-- The same with a compare time 1 ns lower, whose send time is due. -/
def dueBytes : List Byte := armBytes.set 8 0x60

def response1 : Response :=
  { tag := 7, kind := kindHubReset, status := .ok, prevUnread := false, endFlag := false, results := [] }

def answeredState : State := { serving with rcp := { RcpPort.fullReset with buffer := some response1 } }

/-- The same in the middle of a read transaction. -/
def midRead (r : Option Response) : State :=
  { serving with rcp := { RcpPort.fullReset with buffer := some response1, framing := .reading 2, held := r } }

def access1 : AccessEntry := { space := .counters, first := 0, last := 6, read := 63, modify := 0 }

/-! ### Ill-formed commands that the check refuses -/

theorem test_ill_formed_request_length : (Instr.linkRead (rcp (List.replicate 65536 0))).wellFormed = false := by
  show decide ((List.replicate 65536 (0 : Byte)).length < 65536) = false
  rw [List.length_replicate]
  rfl

theorem test_ill_formed_frame_request_length : (Instr.linkRead (fr 0 (List.replicate 1025 0))).wellFormed = false := by
  show decide ((List.replicate 1025 (0 : Byte)).length + 4 ≤ 1028) = false
  rw [List.length_replicate]
  rfl

theorem test_ill_formed_cell_length :
    (Instr.identReceived 0 (cellOf (List.replicate 1029 0))).wellFormed = false := by
  show decide ((List.replicate 1029 (0 : Byte)).length ≤ 1028) = false
  rw [List.length_replicate]
  rfl

/-- A CONTROL body that holds a whole record is not malformed, and an SPI write of one is not discarded. -/
theorem test_ill_formed_discards :
    (Instr.malformedControlCell 0 [7, 0x73, 0, 0]).wellFormed = false
      ∧ (Instr.rcpTransactionDiscarded [0x01, 7, 0x73, 0, 0]).wellFormed = false := by decide

/-- A known kind is not unknown, and each of two rows that share a kind refuses the other's operation. -/
theorem test_ill_formed_rows :
    (Instr.badkind (rcp []) 0x10).wellFormed = false
      ∧ (Instr.linkMarginStart (rcp [0, 1])).wellFormed = false ∧ (Instr.linkMarginCancel (rcp [0, 0])).wellFormed = false
      ∧ (Instr.lineHoldPreload (rcp [0, 1])).wellFormed = false ∧ (Instr.lineHoldSample (rcp [0, 0])).wellFormed = false
      ∧ (Instr.trigArm (rcp [0xFF])).wellFormed = false ∧ (Instr.trigArmAny (rcp [15])).wellFormed = false
      ∧ (Instr.accessSetWrite (rcp [0, 1])).wellFormed = false ∧ (Instr.accessSetEmpty (rcp [0, 0])).wellFormed = false
      ∧ (Instr.counterRead (rcp [0, 1])).wellFormed = false
      ∧ (Instr.counterReadClear (rcp [0, 0])).wellFormed = false := by decide

/-! ### Worked examples of the manual -/

/-- The state after a command. -/
def after (c : Instr) (s : State) : State :=
  match exec c s with
  | .next t => t
  | .fault _ => s
  | .refused _ => s

/-- R182: the check value over the nine bytes "123456789". -/
theorem test_crc_check_value :
    crc32 [0x31, 0x32, 0x33, 0x34, 0x35, 0x36, 0x37, 0x38, 0x39] = 0xCBF43926 := by decide +kernel

/-- No word of the table spells a command, so the queue stays as it is. -/
theorem test_no_word_spells_a_command : (State.reset.withFetchWord 8 0).pending = [] := by decide

/-- Table 5.10 (1), the first exchange. -/
def firstExchange : Stamps := { t1 := 5000000000, t2 := 5000000912, t3 := 5000020912, t4 := 5000020186 }

theorem test_first_exchange :
    stampA firstExchange = 912 ∧ roundTrip firstExchange = 186 ∧ exchangeDelay firstExchange = 93
      ∧ updateDelay none 0 93 = (93, 0, false) := by decide

/-- I and T after steering at k = 3 by theta, from I. -/
def steered (theta i : Int) : Int × Int :=
  let t := steer theta { Timebase.fullReset with integ := i }
  (t.integ, t.trim)

/-- Tables 5.10 (1) to (5): 819 from 2300, exchanges 2 to 4, mirrored, clamped, and the reacquisition by link 4. -/
theorem test_steering :
    steered 819 2300 = (2402, 4040) ∧ steered 310 2402 = (2440, 3060) ∧ steered 75 2440 = (2449, 2599)
      ∧ steered 47 2449 = (2454, 2548) ∧ steered (-819) 2300 = (2198, 560) ∧ steered 5000 99950 = (100000, 100000)
      ∧ steered (-96) (-1730) = (-1742, -1934) := by decide

/-- Tables 5.10 (2) and 6.10 (1), (2): the delay estimate and the shift count. -/
theorem test_delay_estimate :
    updateDelay (some 93) 0 95 = (93, 0, false) ∧ updateDelay (some 93) 0 90 = (93, 0, false)
      ∧ updateDelay (some 93) 0 101 = (94, 0, false) ∧ updateDelay (some 206) 0 518 = (245, 1, false)
      ∧ updateDelay (some 245) 1 517 = (279, 2, false) ∧ updateDelay (some 279) 2 519 = (519, 0, true)
      ∧ updateDelay (some 519) 0 518 = (519, 0, false) := by decide

/-- Table 5.10 (4): with the permit UNUSED and theta 92,000,000,417 the rack time is stepped by theta, and the permit is
USED. Here t4 - t1 is 176 and the frame answers at once, so that d is 88. -/
def stepping : State :=
  let x : Exchange := { openExchange with t1 := some 3500000000 }
  { exchanging 0 x serving with
    rack := 3500000176
    tb := { Timebase.fullReset with source := .link 0, state := .acquiring } }

/-- t2 = t3 = 95,500,000,505. -/
def steppingReply : RxCell :=
  { replyCell with
    body := [0, 0, 0, 0x16, 0x3C, 0x3E, 0x5C, 0xF9, 0, 0, 0, 0x16, 0x3C, 0x3E, 0x5C, 0xF9, 2, 0, 0, 0] }

theorem test_acquisition_step :
    (after (.syncReplyReceived 0 steppingReply) stepping).rack = 95500000593
      ∧ (after (.syncReplyReceived 0 steppingReply) stepping).tb.permitUsed = true
      ∧ (after (.syncReplyReceived 0 steppingReply) stepping).tb.trim = 0 := by decide +kernel

/-- Table 7.15 (2), the late send of entry 5 after the step to 5,000,350,000. -/
def lateEntry : State :=
  { serving with
    rack := 5000350000
    trigs := serving.trigs.set 5
      { armed1 with compare := 5000030000, period := 100000, repeats := 10, targets := 65, code := 3 } }

theorem test_periodic_trigger_skips :
    ((after (.sendEvent 5) lateEntry).trig 5).compare = 5000430000
      ∧ ((after (.sendEvent 5) lateEntry).trig 5).repeats = 6
      ∧ ((after (.sendEvent 5) lateEntry).trig 5).fires = 1 ∧ ((after (.sendEvent 5) lateEntry).trig 5).skips = 3
      ∧ (after (.sendEvent 5) lateEntry).panel.trigoutPulse.isSome = true
      ∧ ((after (.sendEvent 5) lateEntry).port 0).tx
          = some (.cell (.trig { compare := 5000030000, code := 3, index := 5, late := true })) := by decide +kernel

/-- Table 7.15 (3), an edge in frame 1 arms entry 3, and the second edge is a missed capture. -/
def crossTrigger : State :=
  { serving with
    rack := 8000000000
    captureCount := 871
    captures := List.replicate 30 capture1
    trigs := serving.trigs.set 3
      { waiting1 with
        owner := some (.frame 1), source := some (.link 1), delay := some 50000, repeats := 2, targets := 68, code := 9 } }

theorem test_cross_trigger :
    ((after (.trigEdge 1 .rising) crossTrigger).trig 3).state = .armed
      ∧ ((after (.trigEdge 1 .rising) crossTrigger).trig 3).compare = 8000050000
      ∧ ((after (.trigEdge 1 .rising) crossTrigger).captures.getLast?.map (·.number)) = some 872
      ∧ ((after (.trigEdge 1 .rising) (after (.trigEdge 1 .rising) crossTrigger)).trig 3).missedCaptures = 1 := by
  decide +kernel

/-- Table 9.8 (1): fan-out to L0 (17 held, so a hold), L3 (full) and L4 (DRAINING). -/
def fanOut : State :=
  { (((entryIn 4 .draining).setRoute 17 (some
        { route1 with stream := 300, source := 1, egress := 25, kind := .static })).modQueues 0 fun q =>
        { q with normal := List.replicate 17 0 }).modQueues 3 fun q => { q with normal := List.replicate 24 0 } with
    rack := 12000000000
    ports := Vector.replicate 6 { upPort with tx := some (.cell (.sync (.req 1))) } }

def block300 : RxCell := { blockCell with stream := 300 }

theorem test_fan_out :
    ((after (.sampleCellReceived 1 block300) fanOut).slot 0).map (·.refs) = some 1
      ∧ ((after (.sampleCellReceived 1 block300) fanOut).queues 0).normal.length = 18
      ∧ (after (.sampleCellReceived 1 block300) fanOut).holds
          = [{ stream := 300, source := 1, egress := 0, expiry := 12000500000 }]
      ∧ (after (.sampleCellReceived 1 block300) fanOut).counter 3 .dropQueue = 1
      ∧ (after (.sampleCellReceived 1 block300) fanOut).counter 4 .dropDrain = 1
      ∧ (after (.sampleCellReceived 1 block300) fanOut).counter 1 .holdsSent = 1 := by decide +kernel

/-- Table 9.8 (3): E8, then N1 at run 8, then E9; N2 once EXPEDITE is empty. -/
theorem test_expedite_run :
    (chooseBlock { expedite := [8, 9, 10], normal := [11, 12, 13], run := 7 }).map (·.1) = some 8
      ∧ (chooseBlock { expedite := [9, 10], normal := [11, 12, 13], run := 8 })
          = some (11, true, { expedite := [9, 10], normal := [12, 13], run := 0 })
      ∧ (chooseBlock { expedite := [], normal := [12, 13], run := 2 }).map (fun x => (x.1, x.2.2.run)) = some (12, 0)
      ∧ chooseBlock { expedite := [], normal := [], run := 0 } = none := by decide

/-- Chapter 9, a drain meets a recovery: the last block, in transmission, is abandoned, and the entry is QUIESCED. -/
def lastBlock : State :=
  (((entryIn 4 .draining).modEntry 4 fun e => { e with drainEnds := some 51000000 }).modPort 4 fun p =>
    { p with tx := some (.block 60) }).setSlot 60 (some { block with refs := 1 })

theorem test_drain_meets_recovery :
    ((after (.alignmentLost 4 0) lastBlock).entry 4).state = .quiesced
      ∧ ((after (.alignmentLost 4 0) lastBlock).entry 4).lastCause = .none
      ∧ ((after (.alignmentLost 4 0) lastBlock).port 4).state = .off
      ∧ (after (.alignmentLost 4 0) lastBlock).counter 4 .flushed = 1
      ∧ (after (.alignmentLost 4 0) lastBlock).slot 60 = none := by decide +kernel

/-- Chapter 1, a lane lost under traffic: slot 41, with a reference on link 4 too, is abandoned on link 2. F2 masks its notices. -/
def laneLost : State :=
  (((serving.modClient (.frame 2) fun c => { c with mask := 0 }).modPort 2 fun p => { p with tx := some (.block 41) }).setSlot 41 (some { block with refs := 2 })).modQueues 2
    fun q => { q with normal := [12, 17, 23, 30, 35] }

theorem test_lane_lost :
    ((after (.alignmentLost 2 3) laneLost).port 2).state = .recovery
      ∧ ((after (.alignmentLost 2 3) laneLost).slot 41).map (·.refs) = some 1
      ∧ ((after (.alignmentLost 2 3) laneLost).queues 2).normal = [12, 17, 23, 30, 35]
      ∧ ((after (.recoveryLimitExpiry 2 7) (after (.alignmentLost 2 3) laneLost)).port 2).lanes = 7
      ∧ (after (.recoveryLimitExpiry 2 7) (after (.alignmentLost 2 3) laneLost)).counter 2 .laneDrops = 1
      ∧ ((after (.recoveryLimitExpiry 2 7) (after (.alignmentLost 2 3) laneLost)).port 2).tx = some (.block 12) := by
  decide +kernel

/-- Chapter 1, Table 2: the seventh and the eighth empty run. -/
def failing (count : Nat) : State :=
  serving.modPort 5 fun p => { p with state := .training, lanes := 0, failCount := count, limit := some 101000000 }

theorem test_cable_that_will_not_train :
    ((after (.trainingLimitExpiry 5 0) (failing 6)).port 5).state = .training
      ∧ ((after (.trainingLimitExpiry 5 0) (failing 7)).port 5).state = .down
      ∧ ((after (.trainingLimitExpiry 5 0) (failing 7)).port 5).failCount = 8
      ∧ laneSignal (after (.trainingLimitExpiry 5 0) (failing 7)) 5 0 = .quiet
      ∧ ((after (.linkRetrain (rcp [5])) (after (.trainingLimitExpiry 5 0) (failing 7))).port 5).state = .training := by
  decide +kernel

/-- Table 2.8: the last probe of the admission of link 4; lane 2 fails. -/
def admitting : State :=
  let f (l : Lane) (a b c d : Nat) : LaneFigures :=
    { lane := l, plus := { steps := a, errors := b }, minus := { steps := c, errors := d } }
  ((entryIn 4 .probing).modEntry 4 fun e => { e with identity := none }).modMargin 4 fun m => { m with
    probe := some { lastAdmission with lane := 3, direction := .minus, step := 14, errors := 1 }
    admission := some
      { later := []
        plus := some { steps := 13, errors := 2 }
        done := [f 0 14 2 11 1, f 1 9 1 12 4, f 2 4 3 10 1] } }

theorem test_admission_of_link_4 :
    ((after (.dwellEnd 4) admitting).port 4).lanes = 11 ∧ ((after (.dwellEnd 4) admitting).entry 4).state = .identifying
      ∧ ((after (.dwellEnd 4) admitting).margin 4).result
          = { starter := some .admission, lane := some 2, kind := some .timing, direction := some .plus,
              stepLimit := some 31, errorLimit := some 0, steps := 4, errors := 3, outcome := .done }
      ∧ (after (.dwellEnd 4) admitting).counter 4 .laneDrops = 0 := by decide +kernel

/-- Tables 3.12 (2), (3): both orders flush slots 11, 12 and 13 and leave entry 2 EMPTY with cause PRESENCE. -/
def pulled : State :=
  ((((serving.modPort 2 fun p => { p with tx := some (.block 13) }).setSlot 11 (some { block with refs := 1 })).setSlot 12
    (some { block with refs := 1 })).setSlot 13 (some { block with refs := 1 })).modQueues 2 fun q =>
      { q with normal := [11, 12] }

theorem test_surprise_removal (first : Bool) :
    ((after (.presentFall 2 first) pulled).entry 2).state = .empty
      ∧ ((after (.presentFall 2 first) pulled).entry 2).lastCause = .presence
      ∧ (after (.presentFall 2 first) pulled).counter 2 .flushed = 3
      ∧ ((after (.presentFall 2 first) pulled).port 2).state = .down
      ∧ (after (.presentFall 2 first) pulled).slot 13 = none := by revert first; decide +kernel

/-- Table 4.8 (1): TRIG preloaded DRIVEN_LOW holds its pin in QUIESCED and shows its latch in DIRECT mode after it. -/
def parked : State :=
  (quiesced.modLine 5 fun l => { l with
    trig := { mode := .direct, latch := true }
    trigDir := .output
    hold := { HoldRecord.fullReset with trig := .drivenLow } })

theorem test_output_hold :
    trigDriven parked 5 = some false ∧ readyLevel parked 5 = true
      ∧ trigDriven (after (.presentFall 5 true) parked) 5 = some true
      ∧ readyLevel (after (.presentFall 5 true) parked) 5 = true
      ∧ ((after (.presentFall 5 true) parked).port 5).state = .down := by decide +kernel

/-- Table 8.8 (2): the gate of route 5 and the filter of route 12. -/
def lookups : State :=
  let gate : Gate := { start := 9000000000, stop := 9500000000 }
  ((serving.setRoute 5 (some { route1 with stream := 120, source := 3, egress := 1, gate := some gate })).setRoute 12
    (some { route1 with stream := 77, source := 2, egress := 0 })).modSync 3 fun l => { l with follower := .timed }

def stamped (stream : BitVec 16) (stamp : Time) : RxCell := { blockCell with stream := stream, stamp := stamp }

theorem test_lookups :
    (after (.sampleCellReceived 3 (stamped 120 9600000000)) lookups).counter 3 .dropGate = 1
      ∧ (after (.sampleCellReceived 2 (stamped 120 9200000000)) lookups).counter 2 .dropSource = 1
      ∧ (after (.sampleCellReceived 2 (stamped 77 0)) lookups).counter 2 .dropFilter = 1
      ∧ (after (.sampleCellReceived 2 (stamped 999 0)) lookups).counter 2 .dropNoroute = 1
      ∧ ((after (.sampleCellReceived 3 (stamped 120 9100000000)) lookups).route 5).map (·.used) = some true := by
  decide +kernel

/-- Table 10.7 (1): modify by the table or by ownership, read alone, and neither. -/
def accessed : State :=
  let e (sp : Space) (a b : Nat) (r m : LinkSet) : Option AccessEntry :=
    some { space := sp, first := a, last := b, read := r, modify := m }
  { routed { route1 with owner := some (.frame 3) } with
    access := (((((Vector.replicate 8 none).set 0 (e .route 0 63 63 0)).set 1 (e .route 8 15 0 2)).set 2
      (e .counters 0 6 63 0)).set 3 (e .counters 2 2 0 4)).set 4 (e .trigger 0 15 63 63) }

theorem test_access :
    mayModify accessed (.frame 1) .route 9 = true ∧ mayModify accessed (.frame 2) .route 9 = false
      ∧ mayReadRoute accessed (.frame 2) 9 = true ∧ mayModify accessed (.frame 3) .route 3 = false
      ∧ mayReadRoute accessed (.frame 3) 3 = true ∧ mayModify accessed (.frame 2) .counters 2 = true
      ∧ mayModify accessed (.frame 3) .counters 2 = false ∧ mayRead accessed (.frame 3) .counters 2 = true
      ∧ mayRead accessed (.frame 3) .timebase 0 = false ∧ mayRead accessed .rcp .timebase 0 = true := by decide

/-- Table 10.7 (2): a kind outside F2's mask is pending in silence; the next inside it is told, with both. -/
def masked : State := serving.modClient (.frame 2) fun c => { c with mask := 44 }

theorem test_notices :
    (notify .margin masked (.frame 2)).outstanding[(2 : Link)] = false
      ∧ (notify .time (notify .margin masked (.frame 2)) (.frame 2)).outstanding[(2 : Link)] = true
      ∧ ((notify .time (notify .margin masked (.frame 2)) (.frame 2)).port 2).tx
          = some (.cell (.ctrl (.notice 10))) := by decide

/-- R170: a ROUTE_SET of the RCP completes while a read transaction shifts out the response of a HUB_RESET. -/
def midWrite : State :=
  { (midRead none).modClient .rcp (fun c => { c with busy := true }) with
    writing := some (.create { write1 with requester := .rcp } spec1 9) }

theorem test_response_held :
    ((after .routeWriteComplete midWrite).rcp.held.map (·.results)) = some [9, 1]
      ∧ (after .routeWriteComplete midWrite).rcp.buffer = some response1
      ∧ (after .routeWriteComplete midWrite).busy .rcp = true := by decide +kernel

/-- The record of `response1` is 6 bytes: with the status byte, 7 bytes shift it out whole, and 6 leave it unread. -/
theorem test_held_response_written :
    (after (.rcpReadTransaction (.ends 7)) (midRead (some response1))).rcp.buffer.map (·.prevUnread) = some false
      ∧ (after (.rcpReadTransaction (.ends 6)) (midRead (some response1))).rcp.buffer.map (·.prevUnread) = some true
      ∧ (after (.rcpReadTransaction (.ends 7)) (midRead (some response1))).rcp.readMark = false := by decide +kernel

/-- R12: on the lanes of the set, idle fill while nothing is in transmission, cells while something is. -/
theorem test_idle_fill :
    (let s := serving.modPort 5 fun p => { p with lanes := 7 }
     laneSignal s 5 2 = .idleFill ∧ laneSignal s 5 3 = .quiet
       ∧ laneSignal (s.modPort 5 fun p => { p with tx := some (.cell (.sync (.req 1))) }) 5 2 = .cells) := by decide

/-- R172: the first index above the last is refused for ALL too, and an index outside its space; index 6 is within LINES. -/
theorem test_access_set_indices :
    accessArgs [0, 8, 5, 4, 63, 63] = none ∧ (accessArgs [0, 8, 0, 63, 63, 63]).isSome = true
      ∧ accessArgs [0, 0, 0, 6, 63, 63] = none ∧ (accessArgs [0, 6, 6, 6, 63, 63]).isSome = true := by decide

/-- R22: F1 started the probe on link 5; its NOTICE cell (bit 1 is MARGIN) shows it before the loss of alignment sets
LINK (bit 0) pending. -/
theorem test_probe_ends_first :
    (let t := after (.alignmentLost 5 3) (withProbe { lastProbe with starter := .request (.frame 1) } none)
     (t.port 1).tx = some (.cell (.ctrl (.notice 2))) ∧ (t.client (.frame 1)).news = 3
       ∧ (t.margin 5).result.outcome = .abortLink ∧ (t.port 5).state = .recovery) := by decide +kernel

/-- R89: the source goes DOWN with an exchange open and the missing run at 3, and the next source keeps T. -/
theorem test_counted_in_no_run :
    (let s := (exchanging 0 openExchange serving).modTb fun b => { b with missing := 3, trim := 70, integ := 5 }
     (after (.presentFall 0 false) s).tb.trim = 70 ∧ (after (.presentFall 0 false) s).tb.state = .acquiring
       ∧ (after (.replyLimitExpiry 0) s).tb.trim = 5 ∧ (after (.replyLimitExpiry 0) s).tb.state = .holdover) := by
  decide +kernel

/-- R123: frame 5 leaves ACTIVE and is ACTIVE again before the panel event; frame 4 stays. -/
theorem test_departed_frame_has_no_pulse :
    (let s := { withTrig { TrigEntry.free with
        pulse := some { compare := 1000001, panel := false, links := 48, left := 0 } } with
        lines := serving.lines.map fun l => { l with trigDir := .output } }
     let t := (after (.swapRequest 5 .rising) s).modEntry 5 fun e => { e with state := .active }
     ((after (.panelEvent 15) t).line 5).pulse = none ∧ ((after (.panelEvent 15) t).line 4).pulse.isSome = true
       ∧ ((after (.panelEvent 15) s).line 5).pulse.isSome = true) := by decide +kernel

/-- R181: a stray byte, a cell ended after two bytes, a RESUME as an unknown kind with a byte after it, and a length not
complete; lane 2 carries byte 0 of a set without lanes 0 and 1. -/
theorem test_stream_is_cut :
    cableCommands 3 ((Symbol.data 1 :: cellSymbols [1, 0] ++ cellSymbols ((HoldCell.resume 7).bytes ++ [9])
        ++ cellSymbols [1, 0, 0, 4]).map fun x => { symbol := x, marked := 8 })
        = [.cellErrored 3 8, .unknownKindCell 3]
      ∧ laneSymbols 12 2 [10, 11, 12] = [.startOfCell, .data 10, .data 12] ∧ laneSymbols 12 3 [10, 11, 12] = [.data 11] := by
  decide +kernel

/-! ### The laws hold of these states -/

theorem serving_busy : BusyLaw serving := by
  refine ⟨fun rq => ?_, by decide⟩
  cases rq with
  | rcp => decide
  | frame n => revert n; decide

theorem serving_no_route (stream : StreamId) (i : RouteIx) : ∀ r ∈ serving.route i, r.stream ≠ stream := by
  intro r h
  have e : ∀ i, serving.route i = none := by decide
  rw [e i] at h
  cases h

/-- A table whose one valid entry is entry 3. -/
theorem one_route_law (s : State) (r : Route) (hs : ∀ i, s.route i = if i = 3 then some r else none)
    (h0 : r.stream ≠ 0) (h1 : r.egress.getLsbD r.source = false) (hw : ∀ w ∈ s.waiting, waitingLaw w)
    (ha : ∀ w ∈ s.writing, activeLaw s w) : RouteLaw s := by
  have at3 : ∀ i, ∀ x ∈ s.route i, i = 3 ∧ x = r := by
    intro i x hx
    rw [hs i] at hx
    split at hx
    · exact ⟨‹_›, (Option.some.inj hx).symm⟩
    · cases hx
  refine ⟨fun i x hx => ?_, fun i j x hx u hu _ => ?_, hw, ha⟩
  · rw [(at3 i x hx).2]; exact ⟨h0, h1⟩
  · rw [(at3 i x hx).1, (at3 j u hu).1]

theorem routed_route (r : Route) (i : RouteIx) : (routed r).route i = if i = 3 then some r else none := by
  have e : ∀ i, serving.route i = none := by decide
  unfold routed State.route State.setRoute
  simp only [Fin.getElem_fin]
  split
  · next h => subst h; simp
  · next h =>
    rw [Vector.getElem_set_ne _ _ (fun g => h (Fin.ext g.symm))]
    exact e i

theorem routed_law (r : Route) (h0 : r.stream ≠ 0) (h1 : r.egress.getLsbD r.source = false) : RouteLaw (routed r) :=
  one_route_law _ r (routed_route r) h0 h1 (fun _ h => by cases h) (fun _ h => by cases h)

theorem sweeping_law : RouteLaw { routed route1 with writing := some (.sweep 8) } :=
  one_route_law _ route1 (routed_route route1) (by decide) (by decide) (fun _ h => by cases h)
    (fun _ h => by cases h; trivial)

theorem setting_law (w : WriteRequest) : RouteLaw { routed route1 with waiting := [.set w spec1] } :=
  one_route_law _ route1 (routed_route route1) (by decide) (by decide)
    (fun x h => by rw [List.mem_singleton.mp h]; exact ⟨by decide, by decide⟩) (fun _ h => by cases h)

/-- Stream 1 from link 5 to link 4 alone, whose NORMAL queue holds 17 references. -/
def crowded : State :=
  ((routed { route1 with egress := 16 }).modPort 4 fun p => { p with tx := some (.cell (.sync (.req 1))) }).modQueues 4
    fun q => { q with normal := List.replicate 17 0 }

theorem crowded_law : RouteLaw crowded := routed_law { route1 with egress := 16 } (by decide) (by decide)

theorem crowded_appends (hs : List HoldEntry) : appendsHigh 5 4 blockCell block { crowded with holds := hs } :=
  have h : (crowded.port 5).state = .up ∧ crowded.ready = true ∧ (crowded.entry 5).state = .active
      ∧ blockOf blockCell = some block := by decide
  have g : crowded.slot 95 = none ∧ egressEligible crowded 4 = true
      ∧ crowded.highMark ≤ (crowded.queues 4).normal.length + 1 ∧ (crowded.queues 4).normal.length < 24 := by decide
  have law : RouteLaw { crowded with holds := hs } :=
    one_route_law _ { route1 with egress := 16 } (routed_route _) (by decide) (by decide) (fun _ h => by cases h)
      (fun _ h => by cases h)
  ⟨h.1, h.2.1, h.2.2.1, h.2.2.2, law, ⟨3, _, rfl, by decide, by decide, by decide, (fun _ h => by cases h), by decide⟩, ⟨95, g.1⟩, g.2⟩

/-- The same, with a cell in transmission on the source link. -/
def crowdedBusy : State := crowded.modPort 5 fun p => { p with tx := some (.cell (.sync (.req 1))) }

theorem crowded_busy_appends : appendsHigh 5 4 blockCell block crowdedBusy :=
  have h : (crowdedBusy.port 5).state = .up ∧ crowdedBusy.ready = true ∧ (crowdedBusy.entry 5).state = .active
      ∧ blockOf blockCell = some block := by decide
  have g : crowdedBusy.slot 95 = none ∧ egressEligible crowdedBusy 4 = true
      ∧ crowdedBusy.highMark ≤ (crowdedBusy.queues 4).normal.length + 1
      ∧ (crowdedBusy.queues 4).normal.length < 24 := by decide
  ⟨h.1, h.2.1, h.2.2.1, h.2.2.2, crowded_law,
    ⟨3, _, rfl, by decide, by decide, by decide, (fun _ h => by cases h), by decide⟩, ⟨95, g.1⟩, g.2⟩

theorem source_zero (s : State) (h : bestCandidate s = some 0) (g : s.tb.source = .link 0) : SourceLaw s := by
  unfold SourceLaw
  rw [h]
  exact g

theorem following_law : SourceLaw (exchanging 5 openExchange pendingEntry) := source_zero _ (by decide) rfl

/-- A reply to `openExchange` that arrives at 1000000, passes the tests on its fields, and shows delay 500 on the cable. -/
theorem used_reply (n : Link) (cell : RxCell) (d shift : Nat) (cable : Bool) (theta : Int) (s : State)
    (h : (s.port n).state = .up ∧ eligible s n = true ∧ (s.sync n).exchange = some openExchange)
    (c : cell.body.length = 20 ∧ openExchange.number = cell.sequence ∧ cell.flags.getLsbD 2 = true
      ∧ cell.flags.getLsbD 3 = true ∧ replyGrade cell ≤ 3)
    (r : onCable (replyStamps cell 999000 s) = 1000)
    (p : delayTaken (s.sync n).delay (s.sync n).shift 500 d shift cable)
    (e : theta = aheadBy (replyStamps cell 999000 s) - d ∧ theta.natAbs < 2 ^ 40) :
    usedReply n cell 999000 d shift cable theta s := by
  refine ⟨h.1, c.1, h.2.1, ⟨openExchange, h.2.2, rfl, rfl, c.2.1, rfl⟩, c.2.2.1, c.2.2.2.1, c.2.2.2.2, ?_, ?_, ?_, e⟩
  · rw [r]; decide
  · rw [r]; decide
  · unfold delayProduced
    rw [r]
    exact p

/-- A TIMED follower whose delay has been beyond 50 ns twice, behind a source of the grade it reports. -/
def recabled : State :=
  ((exchanging 5 openExchange serving).modSync 5 fun l =>
    { l with delay := some 5000, shift := 2, follower := .timed }).modEntry 0 fun e =>
      { e with identity := some { ident with grade := 2 } }

theorem recabled_law : SourceLaw recabled := source_zero _ (by decide) rfl

/-- The source's exchange is open, in a state with one good exchange. -/
def steering (st : TimebaseState) : State :=
  (exchanging 0 openExchange serving).modTb fun b => { b with state := st, good := 1 }

theorem steering_used (st : TimebaseState) : usedReply 0 replyCell 999000 500 0 false 0 (steering st) := by
  cases st <;> exact used_reply 0 _ 500 0 false 0 _ (by decide) (by decide) (by decide) (by unfold delayTaken; decide)
    (by decide)

theorem steering_best (st : TimebaseState) : bestWith (steering st) 0 (replyOf replyCell).grade := by
  cases st <;> exact ⟨by decide, by decide, [], [1, 2, 3, 4, 5], by decide⟩

theorem stepping_used : usedReply 0 lateReply 999000 500 0 false 15000 (steering .acquiring) :=
  used_reply 0 _ 500 0 false _ _ (by decide) (by decide) (by decide) (by unfold delayTaken; decide) (by decide)

/-- A DRAINING frame whose last block is being sent. -/
def lastSending : State :=
  ((entryIn 5 .draining).modPort 5 fun p => { p with tx := some (.block 95) }).setSlot 95
    (some { block with refs := 1 })

/-- A block in slot 95 waits on link 5, its stream held at link 4; a ROUTE_SET of frame 4 waits; trigger entry 15 is armed; a probe is on lane 3 of link 2; a swap is requested on link 1. -/
def laden : State :=
  let route : Route := { route1 with source := 4, egress := 32, owner := some (.frame 4) }
  { (((((((routed route).modPort 5 fun p => { p with tx := some (.cell (.hold (.resume 1))) }).modQueues 5
        fun q => { q with normal := [95] }).setSlot 95
        (some { block with refs := 1 })).modTrig 15 fun _ => { armed1 with owner := some (.frame 3) }).modMargin 2
        fun m => { m with probe := some lastProbe }).modClient (.frame 4) fun c => { c with busy := true }) with
    pending := [.swapRequest 1 .rising]
    waiting := [.set { write1 with requester := .frame 4 } spec1]
    holds := [{ hold1 with source := 4, egress := 5 }]
    captures := List.replicate 32 capture1 }

theorem laden_step : ∃ t, step laden = .next t := ⟨_, rfl⟩

theorem laden_bounded : Bounded laden := by unfold Bounded; decide

theorem laden_in_range : InRange laden := by unfold InRange accessLaw; decide

theorem laden_ports : PortLaw laden := by unfold PortLaw portLaw; decide

theorem laden_roster : RosterLaw laden := by unfold RosterLaw entryLaw; decide

theorem laden_probe : ProbeLaw laden := by
  have h : ∀ n : Link, (laden.margin n).admission = none
      ∧ ((laden.margin n).probe = none ∨ (n = 2 ∧ (laden.margin n).probe = some lastProbe)) := by decide
  intro n
  refine ⟨fun p hp => ?_, fun a ha => by rw [(h n).1] at ha; cases ha⟩
  rcases (h n).2 with hn | ⟨rfl, hn⟩
  · rw [hn] at hp; cases hp
  · rw [hn] at hp; cases hp; decide

theorem laden_source : SourceLaw laden := by
  have h : bestCandidate laden = some 0 := by decide
  unfold SourceLaw
  rw [h]
  rfl

theorem laden_sync : SyncLaw laden := by unfold SyncLaw; decide

theorem laden_trig : TrigLaw laden := by unfold TrigLaw; decide

theorem laden_route : RouteLaw laden :=
  one_route_law _ { route1 with source := 4, egress := 32, owner := some (.frame 4) } (routed_route _) (by decide)
    (by decide) (fun x h => by rw [List.mem_singleton.mp h]; exact ⟨by decide, by decide⟩) (fun _ h => by cases h)

theorem laden_hold : HoldLaw laden := by
  refine ⟨by decide, fun h hh => ?_⟩
  rw [List.mem_singleton.mp hh]
  exact ⟨3, _, rfl, by decide, by decide, by decide⟩

theorem laden_ref : RefLaw laden := by
  have h : ∀ i : SlotIx, (laden.slot i = none ∧ slotRefs laden i = 0)
      ∨ (laden.slot i = some { block with refs := 1 } ∧ slotRefs laden i = 1) := by decide
  intro i
  rcases h i with ⟨a, b⟩ | ⟨a, b⟩ <;> rw [a, b]
  exact ⟨Nat.le_refl 1, rfl⟩

theorem laden_busy : BusyLaw laden := by
  refine ⟨fun rq => ?_, by decide⟩
  cases rq with
  | rcp => decide
  | frame n => revert n; decide

theorem met_CapacitiesAndRangesAreKept :
    (∃ s t, Bounded s ∧ step s = .next t) ∧ (∃ s t, InRange s ∧ step s = .next t) :=
  ⟨⟨laden, _, laden_bounded, rfl⟩, ⟨laden, _, laden_in_range, rfl⟩⟩

theorem met_PortsKeepTheirLaw : ∃ s t, PortLaw s ∧ step s = .next t := ⟨laden, _, laden_ports, rfl⟩

theorem met_RosterKeepsItsLaw : ∃ s t, RosterLaw s ∧ ProbeLaw s ∧ step s = .next t :=
  ⟨laden, _, laden_roster, laden_probe, rfl⟩

theorem met_ProbesRunOnlyWhereTheyMay : ∃ s t, ProbeLaw s ∧ step s = .next t := ⟨laden, _, laden_probe, rfl⟩

theorem met_SourceIsTheBestCandidate :
    (∃ s t, SourceLaw s ∧ step s = .next t) ∧ (∃ s : State, s.tb.priority.Nodup) :=
  ⟨⟨laden, _, laden_source, rfl⟩, ⟨laden, by decide⟩⟩

theorem met_SyncFollowsEligibility : ∃ s t, SyncLaw s ∧ step s = .next t := ⟨laden, _, laden_sync, rfl⟩

theorem met_ArmedTriggersHaveServingOwners : ∃ s t, TrigLaw s ∧ step s = .next t := ⟨laden, _, laden_trig, rfl⟩

theorem met_RoutesAndHoldsKeepTheirLaws :
    (∃ s t, RouteLaw s ∧ step s = .next t) ∧ (∃ s t, RouteLaw s ∧ HoldLaw s ∧ step s = .next t) :=
  ⟨⟨laden, _, laden_route, rfl⟩, ⟨laden, _, laden_route, laden_hold, rfl⟩⟩

theorem met_ReferenceCountsAreExact : ∃ s t, RefLaw s ∧ step s = .next t := ⟨laden, _, laden_ref, rfl⟩

theorem met_RequestsInProgressAreRouteWrites : ∃ s t, RouteLaw s ∧ BusyLaw s ∧ step s = .next t :=
  ⟨laden, _, laden_route, laden_busy, rfl⟩

theorem held_busy : BusyLaw ((midRead (some response1)).modClient .rcp fun c => { c with busy := true }) := by
  refine ⟨fun rq => ?_, by decide⟩
  cases rq with
  | rcp => decide
  | frame n => revert n; decide

theorem met_CountersOnlyGrow :
    ∃ (c : Instr) (s t : State), c ≠ .resetAssert ∧ c ≠ .resetRelease ∧ (∀ q, c ≠ .hubReset q)
      ∧ (∀ q, c ≠ .counterReadClear q) ∧ exec c s = .next t :=
  ⟨.unknownKindCell 5, laden, _, by decide, by decide, (fun _ => Instr.noConfusion), (fun _ => Instr.noConfusion), rfl⟩

theorem met_EpochMarksAdmissions :
    ∃ (c : Instr) (s t : State), c ≠ .resetAssert ∧ c ≠ .resetRelease ∧ exec c s = .next t :=
  ⟨.identReceived 5 identCell, identifying, _, by decide, by decide, rfl⟩

/-! ### The hypotheses of the other statements are met -/

theorem met_StepTakesFrontCommand :
    ∃ (c : Instr) (rest : List Instr) (s : State), s.pending = c :: rest :=
  ⟨.linkRead (rcp [0]), [], { serving with pending := [.linkRead (rcp [0])] }, by decide⟩

theorem met_StepsAlwaysGoOn :
    (∃ (s : State), s.pending = [] ∧ (∀ x ∈ timers s, s.idleNs < x.1))
    ∧ (∃ (s : State), s.pending = [] ∧ (∃ x ∈ timers s, x.1 ≤ s.idleNs)) :=
  ⟨⟨serving, by decide⟩,
   ⟨{ serving with idleNs := 1000 }, by decide⟩⟩

theorem met_RefusedRequestsChangeNothing :
    (∃ (c : Instr) (q : Request) (kind : Byte) (clear : Bool) (s : State), requestOf c = some (q, kind, clear)
      ∧ Heard q s ∧ s.busy q.requester = true)
    ∧ (∃ (c : Instr) (q : Request) (kind : Byte) (clear : Bool) (st : Status) (s : State),
      requestOf c = some (q, kind, clear) ∧ Heard q s ∧ s.busy q.requester = false
      ∧ refusedKind s q.requester kind clear = some st)
    ∧ (∃ (c : Instr) (q : Request) (kind : Byte) (clear : Bool) (st : Status) (s : State),
      requestOf c = some (q, kind, clear) ∧ Heard q s ∧ s.busy q.requester = false
      ∧ refusedKind s q.requester kind clear = some st)
    ∧ (∃ (c : Instr) (q : Request) (kind : Byte) (clear : Bool) (s : State), requestOf c = some (q, kind, clear)
      ∧ ¬ Heard q s)
    ∧ (∃ (q : Request) (s : State), Heard q s) :=
  ⟨⟨.linkRead (rcp [0]), rcp [0], kindLinkRead, false, setBusy .rcp true serving, by decide, rfl, by decide⟩,
   ⟨.hubReset (fr 5 []), fr 5 [], kindHubReset, false, .noAccess, serving, by decide, rfl, by decide⟩,
   ⟨.linkRead (fr 5 []), fr 5 [], kindLinkRead, false, .state, identifying, by decide, rfl, by decide⟩,
   ⟨.noticeRead (fr 5 []), fr 5 [], kindNoticeRead, false, portIn 5 .recovery, by decide,
     (fun h : ((portIn 5 .recovery).port 5).state = .up => absurd h (by decide))⟩,
   ⟨rcp [], serving, rfl⟩⟩

theorem met_FramedCellsAreReadBack :
    (∃ (body : List Byte), body.length ≤ maxBody)
    ∧ (∃ (bs : List Byte) (len : Nat), len = beNat ((bs.drop 2).take 2))
    ∧ (∃ (early : List RxSymbol), (∀ x ∈ early, x.symbol ≠ .startOfCell)) :=
  ⟨⟨List.replicate 1028 0, Nat.le_of_eq List.length_replicate⟩,
   ⟨List.replicate 1048 4, 1028, by decide⟩,
   ⟨[{ symbol := .data 1, marked := 15 }], by decide⟩⟩

theorem met_RequestRecordsAreReadBack :
    ∃ (c : Instr) (q : Request) (kind : Byte) (clear : Bool), requestOf c = some (q, kind, clear)
      ∧ c.wellFormed = true :=
  ⟨.counterReadClear (fr 5 [6, 1]), fr 5 [6, 1], kindCounterRead, true, by decide⟩

theorem met_CellsAreTakenInOrderAndStriped :
    (∃ (p p' : LinkPort) (c : TxCell), takeWaiting p = some (c, p'))
    ∧ (∃ (p p' : LinkPort) (c : TxCell), takeWaiting p = some (c, p'))
    ∧ (∃ (lanes : LaneSet) (k : Nat) (l : Lane), (lanesOf lanes)[k]? = some l)
    ∧ (∃ (n : Link) (s : State), s.resetAsserted = false ∧ (s.port n).state = .up) :=
  ⟨⟨{ upPort with waitSync := [.req 65535] }, upPort, .sync (.req 65535), by decide⟩,
   ⟨{ upPort with waitHold := [.resume 1, .resume 2] }, { upPort with waitHold := [.resume 2] }, .hold (.resume 1),
     by decide⟩,
   ⟨10, 1, 3, by decide⟩,
   ⟨5, serving, by decide⟩⟩

theorem met_ResetTakesFullResetValues :
    ∃ (s : State), s.resetAsserted = true :=
  ⟨{ serving with resetAsserted := true }, by decide⟩

theorem met_SoftResetAndInitialisation :
    (∃ (s : State), s.ready = false ∧ s.resetAsserted = false)
    ∧ (∃ (s : State), s.ready = true)
    ∧ (∃ (q : Request) (s : State), q.requester = .rcp ∧ s.rcp.reading = false ∧ s.busy .rcp = false ∧ BusyLaw s) :=
  ⟨⟨State.reset, by decide⟩,
   ⟨serving, by decide⟩,
   ⟨rcp [], serving, by decide, by decide, by decide, serving_busy⟩⟩

theorem met_PresenceEdgesMoveTheEntry :
    (∃ (n : Link) (s : State), (s.line n).presentPin = true)
    ∧ (∃ (n : Link) (s : State), (s.line n).presentPin = false ∧ (s.port n).state = .down)
    ∧ (∃ (n : Link) (s : State), (s.line n).presentPin = false ∧ (s.port n).state ≠ .down
      ∧ (s.line n).present.mode = .function ∧ (s.entry n).state = .empty)
    ∧ (∃ (n : Link) (s : State), (s.line n).presentPin = false ∧ (s.port n).state ≠ .down
      ∧ (s.line n).present.mode = .direct)
    ∧ (∃ (n : Link) (s : State), (s.line n).presentPin = true)
    ∧ (∃ (n : Link) (s : State), (s.line n).presentPin = false) :=
  ⟨⟨5, serving, by decide⟩,
   ⟨5, State.reset, by decide⟩,
   ⟨5, (entryIn 5 .empty).modPort 5 (fun p => { p with state := .off, lanes := 0 }) |>.modLine 5 fun l =>
     { l with presentPin := false }, by decide⟩,
   ⟨5, quiesced.modLine 5 fun l => { l with presentPin := false, present := { l.present with mode := .direct } },
     by decide⟩,
   ⟨5, serving, by decide⟩,
   ⟨5, State.reset, by decide⟩⟩

theorem met_SwapRequestsMoveTheEntry :
    (∃ (n : Link) (s : State), (s.line n).swapreq.mode = .direct)
    ∧ (∃ (n : Link) (s : State), (s.line n).swapreq.mode = .function
      ∧ ((s.entry n).state = .empty ∨ (s.entry n).state = .draining ∨ (s.entry n).state = .quiesced
      ∨ (s.entry n).state = .faulted))
    ∧ (∃ (n : Link) (s : State), (s.line n).swapreq.mode = .function
      ∧ ((s.entry n).state = .detected ∨ (s.entry n).state = .probing ∨ (s.entry n).state = .identifying
      ∨ (s.entry n).state = .pending))
    ∧ (∃ (n : Link) (s : State), (s.line n).swapreq.mode = .function ∧ (s.entry n).state = .active)
    ∧ (∃ (n : Link) (s : State), (s.line n).swapreq.mode = .function ∧ (s.entry n).state = .active
      ∧ (s.queues n).expedite ≠ []) :=
  ⟨⟨5, serving.modLine 5 fun l => { l with swapreq := { l.swapreq with mode := .direct } }, by decide⟩,
   ⟨5, draining, by decide⟩,
   ⟨5, identifying, by decide⟩,
   ⟨5, serving, by decide⟩,
   ⟨5, serving.modQueues 5 fun q => { q with expedite := [0] }, by decide⟩⟩

theorem met_TrainingRunsAndEnds :
    (∃ (n : Link) (s : State), (s.port n).state = .down ∧ (s.line n).presentPin = true
      ∧ (s.port n).failCount < failBar ∧ s.resetAsserted = false)
    ∧ (∃ (n : Link) (seen : Bool) (s : State),
      ((s.port n).state ≠ .down ∨ (s.line n).presentPin = false ∨ failBar ≤ (s.port n).failCount ∨ seen = false
      ∨ s.resetAsserted = true))
    ∧ (∃ (n : Link) (seen : Bool) (s : State),
      ((s.port n).state ≠ .down ∨ (s.line n).presentPin = false ∨ failBar ≤ (s.port n).failCount ∨ seen = false
      ∨ s.resetAsserted = true))
    ∧ (∃ (n : Link) (s : State), (s.port n).state = .training)
    ∧ (∃ (n : Link) (aligned : LaneSet) (ends : Nat) (s : State), (s.port n).state = .training
      ∧ (s.port n).limit = some ends ∧ aligned ≠ 0)
    ∧ (∃ (n : Link) (ends : Nat) (s : State), (s.port n).state = .training ∧ (s.port n).limit = some ends) :=
  ⟨⟨5, serving.modPort 5 fun p => { p with state := .down, failCount := 7 }, by decide⟩,
   ⟨5, true, serving.modPort 5 fun p => { p with state := .down, failCount := 8 }, by decide⟩,
   ⟨5, true, { serving.modPort 5 (fun p => { p with state := .down }) with resetAsserted := true }, by decide⟩,
   ⟨5, portIn 5 .training, by decide⟩,
   ⟨5, 8, 1000005, portIn 5 .training, by decide⟩,
   ⟨5, 1000005, portIn 5 .training, by decide⟩⟩

theorem met_RecoveryKeepsTheLinkInService :
    (∃ (n : Link) (c : Instr) (s : State), (s.port n).state = .up ∧ startsRecovery c n s
      ∧ ((s.port n).tx = none → takeWaiting (s.port n) = none)
      ∧ ((s.entry n).state ≠ .draining ∨ sendingBlock (s.port n) = none ∨ (s.queues n).expedite ≠ []
      ∨ (s.queues n).normal ≠ []))
    ∧ (∃ (n : Link) (c : Instr) (s : State), (s.port n).state = .up ∧ startsRecovery c n s
      ∧ ((s.port n).tx = none → takeWaiting (s.port n) = none)
      ∧ ((s.entry n).state ≠ .draining ∨ sendingBlock (s.port n) = none ∨ (s.queues n).expedite ≠ []
      ∨ (s.queues n).normal ≠ []))
    ∧ (∃ (n m : Link) (c : Instr) (p : Probe) (s : State), (s.port n).state = .up ∧ startsRecovery c n s
      ∧ (s.margin n).probe = some p ∧ p.starter = .request (.frame m) ∧ s.outstanding[m] = false
      ∧ (s.client (.frame m)).mask &&& Notice.margin.bit ≠ 0 ∧ (s.port m).state = .up ∧ (s.port m).tx = none
      ∧ takeWaiting (s.port m) = none)
    ∧ (∃ (n m : Link) (c : Instr) (p : Probe) (s : State), (s.port n).state = .up ∧ startsRecovery c n s
      ∧ (s.margin n).probe = some p ∧ p.starter = .request (.frame m) ∧ s.outstanding[m] = false
      ∧ (s.client (.frame m)).mask &&& Notice.margin.bit ≠ 0 ∧ (s.port m).state = .up ∧ (s.port m).tx = none
      ∧ takeWaiting (s.port m) = none)
    ∧ (∃ (n : Link) (c : Instr) (i : SlotIx) (s : State), (s.port n).state = .up ∧ startsRecovery c n s
      ∧ (s.entry n).state = .draining ∧ sendingBlock (s.port n) = some i ∧ (s.queues n).expedite = []
      ∧ (s.queues n).normal = []) :=
  ⟨⟨5, .alignmentLost 5 3, serving, by decide, Or.inl ⟨3, rfl, by decide⟩, by decide⟩,
   ⟨5, .cellErrored 5 0, serving.modPort 5 fun p => { p with errRun := 3, tx := some (.cell (.hold (.resume 1))) },
     by decide, Or.inr ⟨0, rfl, by decide, by decide⟩, by decide⟩,
   ⟨5, 0, .alignmentLost 5 3, { lastProbe with starter := .request (.frame 0) },
     withProbe ({ lastProbe with starter := .request (.frame 0) }) none, by decide, Or.inl ⟨3, rfl, by decide⟩,
     by decide⟩,
   ⟨5, 5, .alignmentLost 5 3, { lastProbe with starter := .request (.frame 5) },
     withProbe ({ lastProbe with starter := .request (.frame 5) }) none, by decide, Or.inl ⟨3, rfl, by decide⟩,
     by decide⟩,
   ⟨5, .alignmentLost 5 3, 95, lastSending, by decide, Or.inl ⟨3, rfl, by decide⟩, by decide⟩⟩

theorem met_RecoveryEnds :
    (∃ (n : Link) (s : State), (s.port n).state = .recovery ∧ (s.port n).tx = none)
    ∧ (∃ (n : Link) (aligned : LaneSet) (ends : Nat) (s : State), (s.port n).state = .recovery
      ∧ (s.port n).limit = some ends ∧ aligned &&& (s.port n).lanes ≠ 0)
    ∧ (∃ (n : Link) (aligned : LaneSet) (ends : Nat) (s : State), (s.port n).state = .recovery
      ∧ (s.port n).limit = some ends ∧ aligned &&& (s.port n).lanes = 0)
    ∧ (∃ (n : Link) (aligned : LaneSet) (ends : Nat) (s : State), (s.port n).state = .recovery
      ∧ (s.port n).limit = some ends ∧ aligned &&& (s.port n).lanes = 0 ∧ (s.entry n).state = .active
      ∧ s.tb.source = .link n ∧ s.tb.missing = 0) :=
  ⟨⟨5, portIn 5 .recovery, by decide⟩,
   ⟨5, 8, 1000005, portIn 5 .recovery, by decide⟩,
   ⟨5, 0, 1000005, portIn 5 .recovery, by decide⟩,
   ⟨0, 0, 1000005, exchanging 0 openExchange (portIn 0 .recovery), by decide⟩⟩

theorem met_BadCellsAreCounted :
    (∃ (n : Link) (marked : LaneSet) (s : State), (s.port n).state = .up ∧ probeError s n marked = true)
    ∧ (∃ (n : Link) (marked : LaneSet) (s : State), (s.port n).state = .up ∧ probeError s n marked = false
      ∧ (s.port n).errRun < 3)
    ∧ (∃ (n : Link) (s : State), (s.port n).state = .up)
    ∧ (∃ (n : Link) (s : State), (s.port n).state = .up)
    ∧ (∃ (n : Link) (s : State), (s.port n).state ≠ .up) :=
  ⟨⟨5, 8, withProbe lastProbe none, by decide⟩,
   ⟨5, 9, (withProbe lastProbe none).modPort 5 fun p => { p with errRun := 2 }, by decide⟩,
   ⟨5, serving, by decide⟩,
   ⟨5, serving, by decide⟩,
   ⟨5, portIn 5 .recovery, by decide⟩⟩

theorem met_TransmissionsComplete :
    (∃ (n : Link) (c : TxCell) (s : State), (s.port n).state = .up ∧ (s.port n).tx = some (.cell c))
    ∧ (∃ (n : Link) (c : TxCell) (s : State), (s.port n).state = .up ∧ (s.port n).tx = some (.cell c)
      ∧ takeWaiting (s.port n) = none ∧ (s.queues n).normal = [1] ∧ 8 ≤ (s.queues n).run ∧ 0 ≤ s.lowMark)
    ∧ (∃ (n : Link) (i : SlotIx) (sl : Slot) (s : State), (s.port n).state = .up ∧ (s.port n).tx = some (.block i)
      ∧ s.slot i = some sl)
    ∧ (∃ (n : Link) (i : SlotIx) (sl : Slot) (s : State), (s.port n).state = .up ∧ (s.port n).tx = some (.block i)
      ∧ s.slot i = some sl ∧ (s.entry n).state = .draining ∧ (s.queues n).expedite = []
      ∧ (s.queues n).normal = []) :=
  ⟨⟨5, .sync (.req 1), serving.modPort 5 fun p => { p with tx := some (.cell (.sync (.req 1))) }, by decide⟩,
   ⟨5, .sync (.req 1),
     (serving.modPort 5 fun p => { p with tx := some (.cell (.sync (.req 1))) }).modQueues 5 fun q =>
     { q with expedite := [0], normal := [1], run := 8 }, by decide⟩,
   ⟨5, 95, block, (serving.modPort 5 fun p => { p with tx := some (.block 95) }).setSlot 95 (some block), by decide⟩,
   ⟨5, 95, block,
     ((entryIn 5 .draining).modPort 5 fun p => { p with tx := some (.block 95) }).setSlot 95 (some block),
     by decide⟩⟩

theorem met_ReadsAnswerTheMoment :
    (∃ (q : Request) (n : Link) (rest : List Byte) (s : State), Taken q kindLinkRead false s
      ∧ readLink q.args = some (n, rest) ∧ mayRead s q.requester .link n.val = true)
    ∧ (∃ (q : Request) (n : Link) (rest : List Byte) (s : State), Taken q kindMarginResult false s
      ∧ readLink q.args = some (n, rest) ∧ mayRead s q.requester .link n.val = true)
    ∧ (∃ (q : Request) (n : Link) (rest : List Byte) (s : State), Taken q kindRosterRead false s
      ∧ readLink q.args = some (n, rest) ∧ mayRead s q.requester .roster n.val = true)
    ∧ (∃ (q : Request) (i : Fin 7) (n : Link) (s : State), Taken q kindLineRead false s ∧ indexArg 7 q.args = some i
      ∧ i.val = n.val ∧ mayRead s q.requester .lines i.val = true)
    ∧ (∃ (q : Request) (i : Fin 7) (s : State), Taken q kindLineRead false s ∧ indexArg 7 q.args = some i ∧ i.val = 6
      ∧ mayRead s q.requester .lines i.val = true)
    ∧ (∃ (q : Request) (s : State), Taken q kindTimeRead false s ∧ mayRead s q.requester .timebase 0 = true)
    ∧ (∃ (q : Request) (n : Link) (rest : List Byte) (s : State), Taken q kindSyncRead false s
      ∧ readLink q.args = some (n, rest) ∧ mayRead s q.requester .timebase 0 = true)
    ∧ (∃ (q : Request) (i : TrigIx) (s : State), Taken q kindTrigRead false s ∧ indexArg 16 q.args = some i
      ∧ mayReadTrig s q.requester i = true)
    ∧ (∃ (q : Request) (i : RouteIx) (s : State), Taken q kindRouteRead false s ∧ s.ready = true
      ∧ indexArg 64 q.args = some i ∧ mayReadRoute s q.requester i = true)
    ∧ (∃ (q : Request) (s : State), Taken q kindAccessRead false s)
    ∧ (∃ (q : Request) (s : State), Taken q kindHubStatus false s) :=
  ⟨⟨fr 5 [5], 5, [], serving, ⟨rfl, rfl, rfl⟩, by decide⟩,
   ⟨fr 5 [5], 5, [], serving, ⟨rfl, rfl, rfl⟩, by decide⟩,
   ⟨fr 5 [5], 5, [], serving, ⟨rfl, rfl, rfl⟩, by decide⟩,
   ⟨fr 5 [5], 5, 5, serving, ⟨rfl, rfl, rfl⟩, by decide⟩,
   ⟨fr 5 [6], 6, serving, ⟨rfl, rfl, rfl⟩, by decide⟩,
   ⟨fr 5 [], serving, ⟨rfl, rfl, rfl⟩, by decide⟩,
   ⟨fr 5 [5], 5, [], serving, ⟨rfl, rfl, rfl⟩, by decide⟩,
   ⟨fr 5 [15], 15, serving, ⟨rfl, rfl, rfl⟩, by decide⟩,
   ⟨fr 5 [63], 63, serving, ⟨rfl, rfl, rfl⟩, by decide⟩,
   ⟨fr 5 [], serving, ⟨rfl, rfl, rfl⟩⟩,
   ⟨fr 5 [], serving, ⟨rfl, rfl, rfl⟩⟩⟩

theorem met_LinkEnableSetsThePort :
    (∃ (q : Request) (n : Link) (rest : List Byte) (s : State), Taken q kindLinkEnable false s
      ∧ readLink q.args = some (n, rest) ∧ mayModify s q.requester .link n.val = true ∧ settingArg rest = some false
      ∧ held s n = false ∧ (s.port n).enabled = true)
    ∧ (∃ (q : Request) (n : Link) (rest : List Byte) (s : State), Taken q kindLinkEnable false s
      ∧ readLink q.args = some (n, rest) ∧ mayModify s q.requester .link n.val = true ∧ settingArg rest = some true
      ∧ held s n = false ∧ (s.port n).enabled = false ∧ (s.port n).state = .off)
    ∧ (∃ (q : Request) (n : Link) (rest : List Byte) (on : Bool) (s : State), Taken q kindLinkEnable false s
      ∧ readLink q.args = some (n, rest) ∧ mayModify s q.requester .link n.val = true ∧ settingArg rest = some on
      ∧ held s n = false ∧ (s.port n).enabled = on)
    ∧ (∃ (q : Request) (n : Link) (rest : List Byte) (on : Bool) (s : State), Taken q kindLinkEnable false s
      ∧ readLink q.args = some (n, rest) ∧ mayModify s q.requester .link n.val = true ∧ settingArg rest = some on
      ∧ held s n = true)
    ∧ (∃ (q : Request) (n : Link) (rest : List Byte) (s : State), Taken q kindLinkEnable false s
      ∧ readLink q.args = some (n, rest) ∧ mayModify s q.requester .link n.val = false) :=
  ⟨⟨fr 5 [5, 1], 5, [1], serving, ⟨rfl, rfl, rfl⟩, by decide⟩,
   ⟨fr 0 [5, 0], 5, [0], serving.modPort 5 fun p => { p with state := .off, enabled := false }, ⟨rfl, rfl, rfl⟩,
     by decide⟩,
   ⟨rcp [5, 0], 5, [0], true, serving, ⟨rfl, rfl, rfl⟩, by decide⟩,
   ⟨rcp [5, 1], 5, [1], false, quiesced, ⟨rfl, rfl, rfl⟩, by decide⟩,
   ⟨fr 5 [5, 1], 5, [1], locked, ⟨rfl, rfl, rfl⟩, by decide⟩⟩

theorem met_LinkRetrainStartsAfresh :
    (∃ (q : Request) (n : Link) (rest : List Byte) (s : State), Taken q kindLinkRetrain false s
      ∧ readLink q.args = some (n, rest) ∧ mayModify s q.requester .link n.val = true
      ∧ ((s.port n).state = .up ∨ (s.port n).state = .recovery ∨ (s.port n).state = .training))
    ∧ (∃ (q : Request) (n : Link) (rest : List Byte) (s : State), Taken q kindLinkRetrain false s
      ∧ readLink q.args = some (n, rest) ∧ mayModify s q.requester .link n.val = true ∧ (s.port n).state = .down)
    ∧ (∃ (q : Request) (n : Link) (rest : List Byte) (s : State), Taken q kindLinkRetrain false s
      ∧ readLink q.args = some (n, rest) ∧ mayModify s q.requester .link n.val = true ∧ (s.port n).state = .off)
    ∧ (∃ (q : Request) (n : Link) (rest : List Byte) (on : Bool) (s : State), Taken q kindLinkEnable false s
      ∧ readLink q.args = some (n, rest) ∧ mayModify s q.requester .link n.val = true ∧ settingArg rest = some on
      ∧ held s n = false)
    ∧ (∃ (q : Request) (n : Link) (rest : List Byte) (on : Bool) (s : State), Taken q kindLinkEnable false s
      ∧ readLink q.args = some (n, rest) ∧ mayModify s q.requester .link n.val = true ∧ settingArg rest = some on
      ∧ held s n = false) :=
  ⟨⟨fr 5 [5], 5, [], serving, ⟨rfl, rfl, rfl⟩, by decide⟩,
   ⟨fr 0 [5], 5, [], serving.modPort 5 fun p => { p with state := .down, failCount := 7 }, ⟨rfl, rfl, rfl⟩,
     by decide⟩,
   ⟨rcp [5], 5, [], quiesced, ⟨rfl, rfl, rfl⟩, by decide⟩,
   ⟨fr 4 [5, 1], 5, [1], false, serving, ⟨rfl, rfl, rfl⟩, by decide⟩,
   ⟨fr 4 [5, 0], 5, [0], true, serving.modPort 5 fun p => { p with state := .off, enabled := false },
     ⟨rfl, rfl, rfl⟩, by decide⟩⟩

theorem met_ProbesRunByDwells :
    (∃ (n : Link) (p : Probe) (s : State), (s.margin n).probe = some p ∧ p.errors ≤ p.errorLimit
      ∧ p.step < p.stepLimit)
    ∧ (∃ (n : Link) (p : Probe) (s : State), (s.margin n).probe = some p)
    ∧ (∃ (n : Link) (lane : Lane) (s : State), (∀ p ∈ (s.margin n).probe, p.lane ≠ lane))
    ∧ (∃ (n : Link) (p : Probe) (rq : Requester) (s : State), (s.margin n).probe = some p ∧ p.starter = .request rq
      ∧ (p.errorLimit < p.errors ∨ p.step = p.stepLimit))
    ∧ (∃ (n : Link) (p : Probe) (rq : Requester) (s : State), (s.margin n).probe = some p ∧ p.starter = .request rq
      ∧ (p.errorLimit < p.errors ∨ p.step = p.stepLimit)) :=
  ⟨⟨5, { lastProbe with step := 30 }, withProbe { lastProbe with step := 30 } none, by decide⟩,
   ⟨5, { lastProbe with errors := 255 }, withProbe { lastProbe with errors := 255 } none, by decide⟩,
   ⟨5, 2, withProbe lastProbe none, by decide⟩,
   ⟨5, lastProbe, .rcp, withProbe lastProbe none, by decide⟩,
   ⟨5, { lastProbe with step := 1, errors := 1 }, .rcp, withProbe { lastProbe with step := 1, errors := 1 } none,
     by decide⟩⟩

theorem met_AdmissionSequenceRunsAndDecides :
    (∃ (n : Link) (p : Probe) (a : Admission) (s : State), (s.margin n).probe = some p ∧ p.starter = .admission
      ∧ (s.margin n).admission = some a ∧ a.plus = none ∧ (p.errorLimit < p.errors ∨ p.step = p.stepLimit))
    ∧ (∃ (n : Link) (p : Probe) (a : Admission) (plus : Figure) (next : Lane) (later : List Lane) (s : State),
      (s.margin n).probe = some p ∧ p.starter = .admission ∧ (s.margin n).admission = some a ∧ a.plus = some plus
      ∧ a.later = next :: later ∧ (p.errorLimit < p.errors ∨ p.step = p.stepLimit))
    ∧ (∃ (n : Link) (p : Probe) (a : Admission) (plus : Figure) (fs : List LaneFigures) (s : State),
      (s.margin n).probe = some p ∧ p.starter = .admission ∧ (s.margin n).admission = some a ∧ a.plus = some plus
      ∧ a.later = [] ∧ (p.errorLimit < p.errors ∨ p.step = p.stepLimit) ∧ (s.entry n).state = .probing
      ∧ fs = a.done ++ [{ lane := p.lane, plus := plus, minus := stopFigure p }]) :=
  ⟨⟨5, lastAdmission, { later := [], plus := none, done := [] },
    withProbe lastAdmission (some { later := [], plus := none, done := [] }), by decide⟩,
   ⟨5, lastAdmission, { later := [3], plus := some figure, done := [] }, figure, 3, [],
     withProbe lastAdmission (some { later := [3], plus := some figure, done := [] }), by decide⟩,
   ⟨5, lastAdmission, { later := [], plus := some figure, done := [] }, figure,
     [{ lane := 3, plus := figure, minus := stopFigure lastAdmission }],
     (withProbe lastAdmission (some { later := [], plus := some figure, done := [] })).modEntry 5 fun e =>
     { e with state := .probing }, by decide⟩⟩

theorem met_MarginStartBeginsAProbe :
    (∃ (q : Request) (n : Link) (rest : List Byte) (a : ProbeArgs) (s : State), Taken q kindLinkMargin false s
      ∧ readLink q.args = some (n, rest) ∧ mayModify s q.requester .link n.val = true ∧ probeArgs rest = some a
      ∧ (s.margin n).probe = none ∧ (s.port n).state = .up ∧ (s.port n).lanes.getLsbD a.lane = true
      ∧ ((s.entry n).state = .pending ∨ (s.entry n).state = .active))
    ∧ (∃ (q : Request) (n : Link) (rest : List Byte) (a : ProbeArgs) (s : State), Taken q kindLinkMargin false s
      ∧ readLink q.args = some (n, rest) ∧ mayModify s q.requester .link n.val = true ∧ probeArgs rest = some a
      ∧ (s.margin n).probe.isSome = true)
    ∧ (∃ (q : Request) (n : Link) (rest : List Byte) (a : ProbeArgs) (s : State), Taken q kindLinkMargin false s
      ∧ readLink q.args = some (n, rest) ∧ mayModify s q.requester .link n.val = true ∧ probeArgs rest = some a
      ∧ (s.margin n).probe = none
      ∧ ((s.port n).state ≠ .up ∨ (s.port n).lanes.getLsbD a.lane = false ∨ ((s.entry n).state ≠ .pending
      ∧ (s.entry n).state ≠ .active)))
    ∧ (∃ (q : Request) (link : Byte) (rest : List Byte) (s : State), Taken q kindLinkMargin false s
      ∧ q.args = link :: rest ∧ 5 < link.toNat)
    ∧ (∃ (q : Request) (n : Link) (rest : List Byte) (s : State), Taken q kindLinkMargin false s
      ∧ readLink q.args = some (n, rest) ∧ mayModify s q.requester .link n.val = false)
    ∧ (∃ (q : Request) (n : Link) (lane kind direction steps errors : Byte) (more : List Byte) (s : State),
      Taken q kindLinkMargin false s
      ∧ readLink q.args = some (n, 0 :: lane :: kind :: direction :: steps :: errors :: more)
      ∧ mayModify s q.requester .link n.val = true
      ∧ (3 < lane.toNat ∨ 1 < kind.toNat ∨ 1 < direction.toNat ∨ steps = 0 ∨ 31 < steps.toNat ∨ 63 < errors.toNat))
    ∧ (∃ (q : Request) (n : Link) (lane kind direction steps errors : Byte) (more : List Byte) (s : State),
      Taken q kindLinkMargin false s
      ∧ readLink q.args = some (n, 0 :: lane :: kind :: direction :: steps :: errors :: more)
      ∧ mayModify s q.requester .link n.val = true
      ∧ (3 < lane.toNat ∨ 1 < kind.toNat ∨ 1 < direction.toNat ∨ steps = 0 ∨ 31 < steps.toNat ∨ 63 < errors.toNat))
    ∧ (∃ (q : Request) (n : Link) (lane kind direction steps errors : Byte) (more : List Byte) (s : State),
      Taken q kindLinkMargin false s
      ∧ readLink q.args = some (n, 0 :: lane :: kind :: direction :: steps :: errors :: more)
      ∧ mayModify s q.requester .link n.val = true
      ∧ (3 < lane.toNat ∨ 1 < kind.toNat ∨ 1 < direction.toNat ∨ steps = 0 ∨ 31 < steps.toNat ∨ 63 < errors.toNat))
    ∧ (∃ (q : Request) (n : Link) (lane kind direction steps errors : Byte) (more : List Byte) (s : State),
      Taken q kindLinkMargin false s
      ∧ readLink q.args = some (n, 0 :: lane :: kind :: direction :: steps :: errors :: more)
      ∧ mayModify s q.requester .link n.val = true
      ∧ (3 < lane.toNat ∨ 1 < kind.toNat ∨ 1 < direction.toNat ∨ steps = 0 ∨ 31 < steps.toNat ∨ 63 < errors.toNat))
    ∧ (∃ (q : Request) (n : Link) (lane kind direction steps errors : Byte) (more : List Byte) (s : State),
      Taken q kindLinkMargin false s
      ∧ readLink q.args = some (n, 0 :: lane :: kind :: direction :: steps :: errors :: more)
      ∧ mayModify s q.requester .link n.val = true
      ∧ (3 < lane.toNat ∨ 1 < kind.toNat ∨ 1 < direction.toNat ∨ steps = 0 ∨ 31 < steps.toNat ∨ 63 < errors.toNat))
    ∧ (∃ (q : Request) (n : Link) (lane kind direction steps errors : Byte) (more : List Byte) (s : State),
      Taken q kindLinkMargin false s
      ∧ readLink q.args = some (n, 0 :: lane :: kind :: direction :: steps :: errors :: more)
      ∧ mayModify s q.requester .link n.val = true
      ∧ (3 < lane.toNat ∨ 1 < kind.toNat ∨ 1 < direction.toNat ∨ steps = 0 ∨ 31 < steps.toNat
      ∨ 63 < errors.toNat)) :=
  ⟨⟨fr 5 [5, 0, 3, 0, 0, 31, 63], 5, [0, 3, 0, 0, 31, 63],
    { lane := 3, kind := .timing, direction := .plus, stepLimit := 31, errorLimit := 63 }, serving, ⟨rfl, rfl, rfl⟩,
    by decide⟩,
   ⟨fr 5 [5, 0, 3, 0, 0, 31, 63], 5, [0, 3, 0, 0, 31, 63],
     { lane := 3, kind := .timing, direction := .plus, stepLimit := 31, errorLimit := 63 }, withProbe lastProbe none,
     ⟨rfl, rfl, rfl⟩, by decide⟩,
   ⟨rcp [5, 0, 3, 0, 0, 31, 63], 5, [0, 3, 0, 0, 31, 63],
     { lane := 3, kind := .timing, direction := .plus, stepLimit := 31, errorLimit := 63 }, portIn 5 .recovery,
     ⟨rfl, rfl, rfl⟩, by decide⟩,
   ⟨fr 5 [6], 6, [], serving, ⟨rfl, rfl, rfl⟩, by decide⟩,
   ⟨fr 5 [5, 0, 3, 0, 0, 31, 63], 5, [0, 3, 0, 0, 31, 63], locked, ⟨rfl, rfl, rfl⟩, by decide⟩,
   ⟨fr 5 [5, 0, 4, 0, 0, 31, 63], 5, 4, 0, 0, 31, 63, [], serving, ⟨rfl, rfl, rfl⟩, by decide⟩,
   ⟨fr 5 [5, 0, 3, 2, 0, 31, 63], 5, 3, 2, 0, 31, 63, [], serving, ⟨rfl, rfl, rfl⟩, by decide⟩,
   ⟨fr 5 [5, 0, 3, 0, 2, 31, 63], 5, 3, 0, 2, 31, 63, [], serving, ⟨rfl, rfl, rfl⟩, by decide⟩,
   ⟨fr 5 [5, 0, 3, 0, 0, 0, 63], 5, 3, 0, 0, 0, 63, [], serving, ⟨rfl, rfl, rfl⟩, by decide⟩,
   ⟨fr 5 [5, 0, 3, 0, 0, 32, 63], 5, 3, 0, 0, 32, 63, [], serving, ⟨rfl, rfl, rfl⟩, by decide⟩,
   ⟨fr 5 [5, 0, 3, 0, 0, 31, 64], 5, 3, 0, 0, 31, 64, [], serving, ⟨rfl, rfl, rfl⟩, by decide⟩⟩

theorem met_MarginCancelEndsAProbe :
    (∃ (q : Request) (n : Link) (rest : List Byte) (p : Probe) (rq : Requester) (s : State),
      Taken q kindLinkMargin false s ∧ readLink q.args = some (n, rest) ∧ mayModify s q.requester .link n.val = true
      ∧ (s.margin n).probe = some p ∧ p.starter = .request rq)
    ∧ (∃ (q : Request) (n : Link) (rest : List Byte) (p : Probe) (s : State), Taken q kindLinkMargin false s
      ∧ readLink q.args = some (n, rest) ∧ mayModify s q.requester .link n.val = true ∧ (s.margin n).probe = some p
      ∧ p.starter = .admission)
    ∧ (∃ (q : Request) (n : Link) (rest : List Byte) (s : State), Taken q kindLinkMargin false s
      ∧ readLink q.args = some (n, rest) ∧ mayModify s q.requester .link n.val = true ∧ (s.margin n).probe = none)
    ∧ (∃ (q : Request) (s : State), Taken q kindLinkMargin false s ∧ readLink q.args = none)
    ∧ (∃ (q : Request) (n : Link) (rest : List Byte) (s : State), Taken q kindLinkMargin false s
      ∧ readLink q.args = some (n, rest) ∧ mayModify s q.requester .link n.val = false)
    ∧ (∃ (q : Request) (s : State), Taken q kindLinkMargin false s ∧ readLink q.args = none)
    ∧ (∃ (q : Request) (n : Link) (rest : List Byte) (s : State), Taken q kindLinkMargin false s
      ∧ readLink q.args = some (n, rest) ∧ mayModify s q.requester .link n.val = true ∧ probeArgs rest = none) :=
  ⟨⟨fr 5 [5, 1], 5, [1], lastProbe, .rcp, withProbe lastProbe none, ⟨rfl, rfl, rfl⟩, by decide⟩,
   ⟨fr 5 [5, 1], 5, [1], lastAdmission, withProbe lastAdmission none, ⟨rfl, rfl, rfl⟩, by decide⟩,
   ⟨fr 5 [5, 1], 5, [1], serving, ⟨rfl, rfl, rfl⟩, by decide⟩,
   ⟨rcp [6], serving, ⟨rfl, rfl, rfl⟩, by decide⟩,
   ⟨fr 5 [5, 1], 5, [1], locked, ⟨rfl, rfl, rfl⟩, by decide⟩,
   ⟨fr 5 [], serving, ⟨rfl, rfl, rfl⟩, by decide⟩,
   ⟨fr 5 [5, 0, 3, 0, 0, 31], 5, [0, 3, 0, 0, 31], serving, ⟨rfl, rfl, rfl⟩, by decide⟩⟩

theorem met_IdentAndLimitsDecide :
    (∃ (n : Link) (cell : RxCell) (s : State), (s.port n).state = .up ∧ (s.entry n).state = .identifying
      ∧ cell.body.length = 12 ∧ identFits (identOf cell.body) = true
      ∧ identityAgrees (s.entry n).identity (identOf cell.body) ∧ (s.entry n).policy = .auto
      ∧ (s.entry n).swapPending = false)
    ∧ (∃ (n : Link) (cell : RxCell) (s : State), (s.port n).state = .up ∧ (s.entry n).state = .identifying
      ∧ cell.body.length = 12 ∧ identFits (identOf cell.body) = true
      ∧ identityAgrees (s.entry n).identity (identOf cell.body) ∧ (s.entry n).policy = .auto
      ∧ (s.entry n).swapPending = true)
    ∧ (∃ (n : Link) (cell : RxCell) (s : State), (s.port n).state = .up ∧ (s.entry n).state = .identifying
      ∧ cell.body.length = 12 ∧ identFits (identOf cell.body) = true
      ∧ identityAgrees (s.entry n).identity (identOf cell.body) ∧ (s.entry n).policy = .auto
      ∧ (s.entry n).swapPending = true ∧ (s.queues n).normal ≠ [])
    ∧ (∃ (n : Link) (cell : RxCell) (s : State), (s.port n).state = .up ∧ (s.entry n).state = .identifying
      ∧ cell.body.length = 12 ∧ identFits (identOf cell.body) = true
      ∧ identityAgrees (s.entry n).identity (identOf cell.body) ∧ (s.entry n).policy = .manual)
    ∧ (∃ (n : Link) (cell : RxCell) (old : Identity) (s : State), (s.port n).state = .up
      ∧ (s.entry n).state = .identifying ∧ cell.body.length = 12 ∧ identFits (identOf cell.body) = true
      ∧ (s.entry n).identity = some old ∧ identMatches old (identOf cell.body) = false)
    ∧ (∃ (n : Link) (cell : RxCell) (s : State), (s.port n).state = .up
      ∧ (cell.body.length ≠ 12 ∨ (s.entry n).state ≠ .identifying ∨ identFits (identOf cell.body) = false))
    ∧ (∃ (n : Link) (ends : Nat) (s : State), (s.entry n).state = .identifying ∧ (s.entry n).identWait = some ends)
    ∧ (∃ (n : Link) (ends : Nat) (s : State), (s.entry n).state = .draining ∧ (s.entry n).drainEnds = some ends
      ∧ (s.port n).state ≠ .off) :=
  ⟨⟨5, identCell, identifying, by decide, by decide, by decide, by decide, (by unfold identityAgrees; decide),
    by decide⟩,
   ⟨5, identCell, identifying.modEntry 5 fun e => { e with swapPending := true }, by decide, by decide, by decide,
     by decide, (by unfold identityAgrees; decide), by decide⟩,
   ⟨5, identCell, (identifying.modEntry 5 fun e => { e with swapPending := true }).modQueues 5 fun q =>
     { q with normal := [0] }, by decide, by decide, by decide, by decide, (by unfold identityAgrees; decide),
     by decide⟩,
   ⟨5, identCell, identifying.modEntry 5 fun e => { e with policy := .manual, identity := some ident }, by decide,
     by decide, by decide, by decide, (by unfold identityAgrees; decide), by decide⟩,
   ⟨5, identCell, { ident with serial := 2 },
     identifying.modEntry 5 fun e => { e with identity := some { ident with serial := 2 } }, by decide⟩,
   ⟨5, cellOf (List.replicate 13 0), identifying, by decide⟩,
   ⟨5, 1000009, identifying, by decide⟩,
   ⟨5, 1000009, draining, by decide⟩⟩

theorem met_FrameRequestsMoveTheEntry :
    (∃ (q : Request) (n : Link) (rest : List Byte) (s : State), Taken q kindFrameAdmit false s
      ∧ readLink q.args = some (n, rest) ∧ mayModify s q.requester .roster n.val = true
      ∧ (s.entry n).state = .pending ∧ (s.entry n).swapPending = false)
    ∧ (∃ (q : Request) (n : Link) (rest : List Byte) (s : State), Taken q kindFrameAdmit false s
      ∧ readLink q.args = some (n, rest) ∧ mayModify s q.requester .roster n.val = true
      ∧ (s.entry n).state = .pending ∧ (s.entry n).swapPending = true)
    ∧ (∃ (q : Request) (n : Link) (rest : List Byte) (s : State), Taken q kindFrameAdmit false s
      ∧ readLink q.args = some (n, rest) ∧ mayModify s q.requester .roster n.val = true
      ∧ (s.entry n).state ≠ .pending)
    ∧ (∃ (q : Request) (n : Link) (rest : List Byte) (expected : Option Nat) (s : State),
      Taken q kindFrameRelease false s ∧ readLink q.args = some (n, rest)
      ∧ mayModify s q.requester .roster n.val = true ∧ epochArg rest = some expected ∧ (s.entry n).state = .active
      ∧ (∀ x ∈ expected, x = (s.entry n).epoch.toNat)
      ∧ ((s.queues n).expedite ≠ [] ∨ (s.queues n).normal ≠ [] ∨ sendingBlock (s.port n) ≠ none))
    ∧ (∃ (q : Request) (n : Link) (rest : List Byte) (expected : Option Nat) (s : State),
      Taken q kindFrameRelease false s ∧ readLink q.args = some (n, rest)
      ∧ mayModify s q.requester .roster n.val = true ∧ epochArg rest = some expected ∧ (s.entry n).state = .active
      ∧ (∀ x ∈ expected, x = (s.entry n).epoch.toNat) ∧ (s.queues n).expedite = [] ∧ (s.queues n).normal = []
      ∧ sendingBlock (s.port n) = none)
    ∧ (∃ (q : Request) (n : Link) (rest : List Byte) (expected : Option Nat) (s : State),
      Taken q kindFrameRelease false s ∧ readLink q.args = some (n, rest)
      ∧ mayModify s q.requester .roster n.val = true ∧ epochArg rest = some expected
      ∧ ((s.entry n).state ≠ .active ∨ (∃ x ∈ expected, x ≠ (s.entry n).epoch.toNat)))
    ∧ (∃ (q : Request) (n : Link) (rest : List Byte) (s : State), Taken q kindFrameRestore false s
      ∧ readLink q.args = some (n, rest) ∧ mayModify s q.requester .roster n.val = true
      ∧ (s.entry n).state = .quiesced ∧ (s.port n).state = .off)
    ∧ (∃ (q : Request) (n : Link) (rest : List Byte) (s : State), Taken q kindFrameRestore false s
      ∧ readLink q.args = some (n, rest) ∧ mayModify s q.requester .roster n.val = true
      ∧ (s.entry n).state ≠ .quiesced)
    ∧ (∃ (q : Request) (n : Link) (rest : List Byte) (expected : Option Nat) (s : State),
      Taken q kindFrameEvict false s ∧ readLink q.args = some (n, rest)
      ∧ mayModify s q.requester .roster n.val = true ∧ epochArg rest = some expected
      ∧ ((s.entry n).state = .pending ∨ (s.entry n).state = .active ∨ (s.entry n).state = .draining)
      ∧ (∀ x ∈ expected, x = (s.entry n).epoch.toNat))
    ∧ (∃ (q : Request) (n : Link) (rest : List Byte) (expected : Option Nat) (s : State),
      Taken q kindFrameEvict false s ∧ readLink q.args = some (n, rest)
      ∧ mayModify s q.requester .roster n.val = true ∧ epochArg rest = some expected
      ∧ (((s.entry n).state ≠ .pending ∧ (s.entry n).state ≠ .active ∧ (s.entry n).state ≠ .draining)
      ∨ (∃ x ∈ expected, x ≠ (s.entry n).epoch.toNat))) :=
  ⟨⟨rcp [5], 5, [], pendingEntry, ⟨rfl, rfl, rfl⟩, by decide⟩,
   ⟨fr 0 [5], 5, [], pendingEntry.modEntry 5 fun e => { e with swapPending := true }, ⟨rfl, rfl, rfl⟩, by decide⟩,
   ⟨fr 5 [5], 5, [], serving, ⟨rfl, rfl, rfl⟩, by decide⟩,
   ⟨fr 5 [5, 1, 0, 1], 5, [1, 0, 1], some 1, serving.modQueues 5 fun q => { q with normal := [0] }, ⟨rfl, rfl, rfl⟩,
     by decide⟩,
   ⟨fr 5 [5, 1, 0, 1], 5, [1, 0, 1], some 1, serving, ⟨rfl, rfl, rfl⟩, by decide⟩,
   ⟨fr 5 [5, 1, 0, 2], 5, [1, 0, 2], some 2, serving, ⟨rfl, rfl, rfl⟩, by decide⟩,
   ⟨fr 0 [5], 5, [], quiesced, ⟨rfl, rfl, rfl⟩, by decide⟩,
   ⟨fr 5 [5], 5, [], serving, ⟨rfl, rfl, rfl⟩, by decide⟩,
   ⟨fr 5 [5, 1, 0, 1], 5, [1, 0, 1], some 1, serving, ⟨rfl, rfl, rfl⟩, by decide⟩,
   ⟨fr 0 [5, 0], 5, [0], none, quiesced, ⟨rfl, rfl, rfl⟩, by decide⟩⟩

theorem met_ConfigRequestsStoreSettings :
    (∃ (q : Request) (a : RosterArgs) (s : State), Taken q kindRosterConfig false s ∧ rosterArgs q.args = some a)
    ∧ (∃ (q : Request) (list : List Link) (s : State), Taken q kindTimeSource false s
      ∧ mayModify s q.requester .timebase 0 = true ∧ priorityArg q.args = some list ∧ list = s.tb.priority)
    ∧ (∃ (q : Request) (list : List Link) (s : State), Taken q kindTimeSource false s
      ∧ mayModify s q.requester .timebase 0 = true ∧ priorityArg q.args = some list ∧ list ≠ s.tb.priority)
    ∧ (∃ (q : Request) (a : TimeArgs) (s : State), Taken q kindTimeConfig false s
      ∧ mayModify s q.requester .timebase 0 = true ∧ timeArgs q.args = some a ∧ a.k = some 4 ∧ s.tb.k = 3
      ∧ (s.sync 5).schedule.isSome = true)
    ∧ (∃ (q : Request) (a : TimeArgs) (s : State), Taken q kindTimeConfig false s
      ∧ mayModify s q.requester .timebase 0 = true ∧ timeArgs q.args = some a ∧ s.tb.state = .holdover
      ∧ s.osc < 5 + 1 * 1000000000)
    ∧ (∃ (q : Request) (a : StreamArgs) (s : State), Taken q kindStreamConfig false s
      ∧ streamArgs q.args = some a) :=
  ⟨⟨rcp [0x20, 0, 0, 0, 0, 0, 1, 1, 31, 1, 0x03, 0xE8],
    { policies := [none, none, none, none, none, some .manual], minSteps := some 31, limitMs := some 1000 }, serving,
    ⟨rfl, rfl, rfl⟩, by decide⟩,
   ⟨fr 5 [0, 1, 2, 3, 4, 5], [0, 1, 2, 3, 4, 5], serving, ⟨rfl, rfl, rfl⟩, by decide⟩,
   ⟨fr 5 [5, 4, 3, 2, 1, 0], [5, 4, 3, 2, 1, 0], serving, ⟨rfl, rfl, rfl⟩, by decide⟩,
   ⟨fr 5 [1, 4, 0, 0, 0, 1, 0xFF, 0xFE, 0x79, 0x60],
     { k := some 4, window := none, stepThreshold := none, holdoverLimit := none, freeTrim := some (-100000) },
     serving, ⟨rfl, rfl, rfl⟩, by decide⟩,
   ⟨fr 5 [0, 0, 0, 1, 0, 1, 0],
     { k := none, window := none, stepThreshold := none, holdoverLimit := some 1, freeTrim := none },
     serving.modTb fun b => { b with state := .holdover, holdoverSince := some 5 }, ⟨rfl, rfl, rfl⟩, by decide⟩,
   ⟨rcp [1, 255, 1, 4, 1, 3, 0], { aging := some 255, high := some 4, low := some 3, hold := none }, serving,
     ⟨rfl, rfl, rfl⟩, by decide⟩⟩

theorem met_LinesFollowEdgesAndRequests :
    (∃ (n : Link) (s : State),
      ((s.line n).trig.mode = .direct ∨ (s.line n).trigDir = .output ∨ (s.entry n).state = .quiesced))
    ∧ (∃ (s : State), s.panel.trigin.mode = .direct)
    ∧ (∃ (n : Link) (ends : Nat) (s : State), (s.line n).pulse = some ends)
    ∧ (∃ (ends : Nat) (s : State), s.panel.trigoutPulse = some ends)
    ∧ (∃ (q : Request) (i : Fin 7) (n : Link) (l : LineName) (v : Bool) (s : State), Taken q kindLineWrite false s
      ∧ indexArg 7 q.args = some i ∧ i.val = n.val ∧ mayModify s q.requester .lines i.val = true
      ∧ lineWriteArgs i.val (q.args.drop 1) = some (l, v))
    ∧ (∃ (q : Request) (i : Fin 7) (l : LineName) (v : Bool) (s : State), Taken q kindLineWrite false s
      ∧ indexArg 7 q.args = some i ∧ i.val = 6 ∧ mayModify s q.requester .lines i.val = true
      ∧ lineWriteArgs i.val (q.args.drop 1) = some (l, v))
    ∧ (∃ (q : Request) (i : Fin 7) (n : Link) (m : LineMode) (d : Option TrigDir) (s : State),
      Taken q kindLineMode false s ∧ indexArg 7 q.args = some i ∧ i.val = n.val
      ∧ mayModify s q.requester .lines i.val = true ∧ lineModeArgs i.val (q.args.drop 1) = some (.trig, m, d))
    ∧ (∃ (q : Request) (i : Fin 7) (n : Link) (l : LineName) (m : LineMode) (d : Option TrigDir) (s : State),
      Taken q kindLineMode false s ∧ indexArg 7 q.args = some i ∧ i.val = n.val
      ∧ mayModify s q.requester .lines i.val = true ∧ lineModeArgs i.val (q.args.drop 1) = some (l, m, d)
      ∧ (l = .ready ∨ l = .swapreq ∨ (l = .present ∧ (m = .direct ∨ (s.line n).present.mode = .function))))
    ∧ (∃ (q : Request) (i : Fin 7) (l : LineName) (m : LineMode) (d : Option TrigDir) (s : State),
      Taken q kindLineMode false s ∧ indexArg 7 q.args = some i ∧ i.val = 6
      ∧ mayModify s q.requester .lines i.val = true ∧ lineModeArgs i.val (q.args.drop 1) = some (l, m, d))
    ∧ (∃ (q : Request) (i : Fin 7) (n : Link) (d : Option TrigDir) (s : State), Taken q kindLineMode false s
      ∧ indexArg 7 q.args = some i ∧ i.val = n.val ∧ mayModify s q.requester .lines i.val = true
      ∧ lineModeArgs i.val (q.args.drop 1) = some (.present, .function, d) ∧ (s.line n).present.mode = .direct)
    ∧ (∃ (q : Request) (i : Fin 7) (n : Link) (d : Option TrigDir) (s : State), Taken q kindLineMode false s
      ∧ indexArg 7 q.args = some i ∧ i.val = n.val ∧ mayModify s q.requester .lines i.val = true
      ∧ lineModeArgs i.val (q.args.drop 1) = some (.present, .function, d) ∧ (s.line n).present.mode = .direct
      ∧ (s.line n).presentPin = true ∧ (s.entry n).presence = false ∧ inService (s.port n).state = true)
    ∧ (∃ (c : Instr) (q : Request) (kind : Byte) (allowed : State → Requester → Space → Nat → Bool) (s : State),
      asksLines c q kind allowed ∧ Taken q kind false s ∧ indexArg 7 q.args = none)
    ∧ (∃ (c : Instr) (q : Request) (kind : Byte) (allowed : State → Requester → Space → Nat → Bool) (s : State),
      asksLines c q kind allowed ∧ Taken q kind false s ∧ indexArg 7 q.args = some 5
      ∧ allowed s q.requester .lines 5 = false)
    ∧ (∃ (q : Request) (i : Fin 7) (index line value : Byte) (rest : List Byte) (s : State),
      Taken q kindLineWrite false s ∧ q.args = index :: line :: value :: rest ∧ index.toNat = i.val
      ∧ mayModify s q.requester .lines i.val = true ∧ (¬ lineCode i line ∨ 1 < value.toNat))
    ∧ (∃ (q : Request) (i : Fin 7) (index line value : Byte) (rest : List Byte) (s : State),
      Taken q kindLineWrite false s ∧ q.args = index :: line :: value :: rest ∧ index.toNat = i.val
      ∧ mayModify s q.requester .lines i.val = true ∧ (¬ lineCode i line ∨ 1 < value.toNat))
    ∧ (∃ (q : Request) (i : Fin 7) (index line mode given : Byte) (rest : List Byte) (s : State),
      Taken q kindLineMode false s ∧ q.args = index :: line :: mode :: given :: rest ∧ index.toNat = i.val
      ∧ mayModify s q.requester .lines i.val = true
      ∧ (¬ lineCode i line ∨ 1 < mode.toNat ∨ (given = 1 ∧ (line ≠ 3 ∨ ∀ dir more, rest = dir ::
      more → 1 < dir.toNat))))
    ∧ (∃ (q : Request) (i : Fin 7) (index line mode given : Byte) (rest : List Byte) (s : State),
      Taken q kindLineMode false s ∧ q.args = index :: line :: mode :: given :: rest ∧ index.toNat = i.val
      ∧ mayModify s q.requester .lines i.val = true
      ∧ (¬ lineCode i line ∨ 1 < mode.toNat ∨ (given = 1 ∧ (line ≠ 3 ∨ ∀ dir more, rest = dir ::
      more → 1 < dir.toNat))))
    ∧ (∃ (q : Request) (i : Fin 7) (index line mode given : Byte) (rest : List Byte) (s : State),
      Taken q kindLineMode false s ∧ q.args = index :: line :: mode :: given :: rest ∧ index.toNat = i.val
      ∧ mayModify s q.requester .lines i.val = true
      ∧ (¬ lineCode i line ∨ 1 < mode.toNat ∨ (given = 1 ∧ (line ≠ 3 ∨ ∀ dir more, rest = dir ::
      more → 1 < dir.toNat)))) :=
  ⟨⟨5, serving.modLine 5 fun l => { l with trigDir := .output }, by decide⟩,
   ⟨{ serving with panel := { PanelLines.fullReset with trigin := { mode := .direct, latch := false } } },
     by decide⟩,
   ⟨5, 1000009, serving.modLine 5 fun l => { l with pulse := some 1000009 }, by decide⟩,
   ⟨1000009, { serving with panel := { PanelLines.fullReset with trigoutPulse := some 1000009 } }, by decide⟩,
   ⟨fr 5 [5, 3, 1], 5, 5, .trig, true, serving, ⟨rfl, rfl, rfl⟩, by decide⟩,
   ⟨fr 5 [6, 5, 1], 6, .trigout, true, serving, ⟨rfl, rfl, rfl⟩, by decide⟩,
   ⟨fr 5 [5, 3, 1, 1, 1], 5, 5, .direct, some .output, serving, ⟨rfl, rfl, rfl⟩, by decide⟩,
   ⟨fr 5 [5, 0, 1, 0], 5, 5, .present, .direct, none, serving, ⟨rfl, rfl, rfl⟩, by decide⟩,
   ⟨fr 5 [6, 4, 1, 0], 6, .trigin, .direct, none, serving, ⟨rfl, rfl, rfl⟩, by decide⟩,
   ⟨fr 5 [5, 0, 0, 0], 5, 5, none,
     serving.modLine 5 fun l => { l with present := { mode := .direct, latch := false } }, ⟨rfl, rfl, rfl⟩,
     by decide⟩,
   ⟨fr 4 [5, 0, 0, 0], 5, 5, none,
     (serving.modEntry 5 fun e => { e with state := .empty, presence := false }).modLine 5 fun l =>
     { l with present := { mode := .direct, latch := false } }, ⟨rfl, rfl, rfl⟩, by decide⟩,
   ⟨.lineHoldSample (fr 5 [7]), fr 5 [7], kindLineHold, mayModify, serving,
     Or.inr (Or.inr (Or.inr ⟨Or.inr rfl, rfl, rfl⟩)), ⟨rfl, rfl, rfl⟩, by decide⟩,
   ⟨.lineRead (fr 5 [5]), fr 5 [5], kindLineRead, mayRead, locked, Or.inl ⟨rfl, rfl, rfl⟩, ⟨rfl, rfl, rfl⟩,
     by decide⟩,
   ⟨fr 5 [5, 4, 1], 5, 5, 4, 1, [], serving, ⟨rfl, rfl, rfl⟩, by decide, by decide, by decide,
     (by unfold lineCode; decide)⟩,
   ⟨fr 5 [6, 5, 2], 6, 6, 5, 2, [], serving, ⟨rfl, rfl, rfl⟩, by decide, by decide, by decide,
     (by unfold lineCode; decide)⟩,
   ⟨fr 5 [6, 3, 1, 0], 6, 6, 3, 1, 0, [], serving, ⟨rfl, rfl, rfl⟩, by decide, by decide, by decide,
     Or.inl (by unfold lineCode; decide)⟩,
   ⟨fr 5 [5, 2, 1, 1, 0], 5, 5, 2, 1, 1, [0], serving, ⟨rfl, rfl, rfl⟩, by decide, by decide, by decide,
     Or.inr (Or.inr ⟨rfl, Or.inl (by decide)⟩)⟩,
   ⟨fr 5 [5, 3, 1, 1, 2], 5, 5, 3, 1, 1, [2], serving, ⟨rfl, rfl, rfl⟩, by decide, by decide, by decide,
     Or.inr (Or.inr ⟨rfl, Or.inr (fun _ _ h => by cases h; decide)⟩)⟩⟩

theorem met_HoldRecordsSetThePins :
    (∃ (q : Request) (i : Fin 7) (n : Link) (ready : Bool) (drive : TrigDrive) (s : State),
      Taken q kindLineHold false s ∧ indexArg 7 q.args = some i ∧ i.val = n.val
      ∧ mayModify s q.requester .lines i.val = true ∧ holdArgs (q.args.drop 1) = some (ready, drive)
      ∧ (s.entry n).state ≠ .quiesced)
    ∧ (∃ (q : Request) (i : Fin 7) (n : Link) (s : State), Taken q kindLineHold false s ∧ indexArg 7 q.args = some i
      ∧ i.val = n.val ∧ mayModify s q.requester .lines i.val = true ∧ (s.entry n).state ≠ .quiesced)
    ∧ (∃ (q : Request) (i : Fin 7) (n : Link) (s : State), Taken q kindLineHold false s ∧ indexArg 7 q.args = some i
      ∧ i.val = n.val ∧ mayModify s q.requester .lines i.val = true ∧ (s.entry n).state = .quiesced)
    ∧ (∃ (q : Request) (i : Fin 7) (s : State), Taken q kindLineHold false s ∧ indexArg 7 q.args = some i
      ∧ mayModify s q.requester .lines i.val = true ∧ q.args = [6, 0, 0, 0])
    ∧ (∃ (q : Request) (i : Fin 7) (s : State), Taken q kindLineHold false s ∧ indexArg 7 q.args = some i
      ∧ mayModify s q.requester .lines i.val = true ∧ q.args = [5, 0, 2, 0])
    ∧ (∃ (n : Link) (s : State), (s.entry n).state = .quiesced) :=
  ⟨⟨fr 5 [5, 0, 1, 1], 5, 5, false, .drivenHigh, serving, ⟨rfl, rfl, rfl⟩, by decide⟩,
   ⟨fr 5 [5, 1], 5, 5, serving, ⟨rfl, rfl, rfl⟩, by decide⟩,
   ⟨fr 0 [5, 1], 5, 5, quiesced, ⟨rfl, rfl, rfl⟩, by decide⟩,
   ⟨fr 5 [6, 0, 0, 0], 6, serving, ⟨rfl, rfl, rfl⟩, by decide⟩,
   ⟨fr 5 [5, 0, 2, 0], 5, serving, ⟨rfl, rfl, rfl⟩, by decide⟩,
   ⟨5, quiesced, by decide⟩⟩

theorem met_TimeAndDelayAreExact :
    (∃ (a b : Nat) (s : State), s.fracRem < 1000000000
      ∧ s.rack.toNat + (a + b) * rackRate s / 1000000000 + 1 < 2 ^ 64)
    ∧ (∃ (s : State), -1000000000 ≤ s.tb.trim)
    ∧ (∃ (d w : Nat) (x : Int), d ≤ 5000 ∧ w < 2 ^ 62 ∧ x.natAbs < 2 ^ 40) :=
  ⟨⟨1, 2, serving, by decide⟩,
   ⟨serving.modTb fun b => { b with trim := -1000000000 }, by decide⟩,
   ⟨5000, 0, 1099511627775, by decide⟩⟩

theorem met_ExchangesFallDue :
    (∃ (n : Link) (sc : Schedule) (s : State), (s.sync n).schedule = some sc ∧ (s.sync n).exchange = none
      ∧ (s.port n).state = .up)
    ∧ (∃ (n : Link) (sc : Schedule) (s : State), (s.sync n).schedule = some sc ∧ (s.sync n).exchange = none
      ∧ (s.port n).state = .recovery ∧ syncRole s n = .follower)
    ∧ (∃ (n : Link) (sc : Schedule) (x : Exchange) (s : State), (s.sync n).schedule = some sc
      ∧ (s.sync n).exchange = some x ∧ syncRole s n = .follower)
    ∧ (∃ (n : Link) (sc : Schedule) (s : State), (s.sync n).schedule = some sc ∧ s.tb.source = .link n
      ∧ eligible s n = true ∧ ((s.sync n).exchange ≠ none ∨ (s.port n).state = .recovery))
    ∧ (∃ (n : Link) (sc : Schedule) (s : State), (s.sync n).schedule = some sc ∧ s.tb.source = .link n
      ∧ eligible s n = true ∧ ((s.sync n).exchange ≠ none ∨ (s.port n).state = .recovery)) :=
  ⟨⟨5, running, serving, by decide⟩,
   ⟨5, running, portIn 5 .recovery, by decide⟩,
   ⟨5, running, openExchange, exchanging 5 openExchange serving, by decide⟩,
   ⟨0, running, exchanging 0 openExchange serving, by decide⟩,
   ⟨0, running, serving.modPort 0 fun p => { p with state := .recovery }, by decide⟩⟩

theorem met_SyncLimitsExpire :
    (∃ (n : Link) (x : Exchange) (ends : Nat) (s : State), (s.sync n).exchange = some x ∧ x.limit = some ends
      ∧ syncRole s n = .follower)
    ∧ (∃ (n : Link) (x : Exchange) (ends : Nat) (s : State), (s.sync n).exchange = some x ∧ x.limit = some ends
      ∧ s.tb.source = .link n ∧ eligible s n = true)
    ∧ (∃ (n : Link) (x : Exchange) (ends : Nat) (s : State), (s.sync n).exchange = some x ∧ x.limit = some ends
      ∧ eligible s n = false)
    ∧ (∃ (since : Nat) (s : State), s.tb.state = .holdover ∧ s.tb.holdoverSince = some since) :=
  ⟨⟨5, openExchange, 1000009, exchanging 5 openExchange serving, by decide⟩,
   ⟨0, openExchange, 1000009, exchanging 0 openExchange serving, by decide⟩,
   ⟨0, openExchange, 1000009, exchanging 0 openExchange (portIn 0 .down), by decide⟩,
   ⟨5, serving.modTb fun b => { b with state := .holdover, holdoverSince := some 5 }, by decide⟩⟩

theorem met_UnusableRepliesAreDiscarded :
    (∃ (n : Link) (cell : RxCell) (s : State), (s.port n).state = .up
      ∧ (cell.body.length ≠ 20 ∨ (∀ x ∈ (s.sync n).exchange, x.t1 = none ∨ x.limit = none
      ∨ x.number ≠ cell.sequence)))
    ∧ (∃ (n : Link) (cell : RxCell) (x : Exchange) (s : State), (s.port n).state = .up ∧ cell.body.length = 20
      ∧ (s.sync n).exchange = some x ∧ x.t1.isSome = true ∧ x.limit.isSome = true ∧ x.number = cell.sequence
      ∧ eligible s n = false)
    ∧ (∃ (n : Link) (cell : RxCell) (x : Exchange) (t1 : Time) (s : State), (s.port n).state = .up
      ∧ cell.body.length = 20 ∧ (s.sync n).exchange = some x ∧ x.t1 = some t1 ∧ x.limit.isSome = true
      ∧ x.number = cell.sequence ∧ eligible s n = true ∧ replyFails n x cell t1 s ∧ s.tb.source ≠ .link n
      ∧ (s.sync n).missing < 3)
    ∧ (∃ (n : Link) (cell : RxCell) (x : Exchange) (t1 : Time) (s : State), (s.port n).state = .up
      ∧ cell.body.length = 20 ∧ (s.sync n).exchange = some x ∧ x.t1 = some t1 ∧ x.limit.isSome = true
      ∧ x.number = cell.sequence ∧ eligible s n = true ∧ replyFails n x cell t1 s ∧ s.tb.source = .link n
      ∧ 3 ≤ s.tb.missing ∧ s.tb.state = .locked)
    ∧ (∃ (n : Link) (cell : RxCell) (x : Exchange) (t1 : Time) (s : State), (s.port n).state = .up
      ∧ cell.body.length = 20 ∧ (s.sync n).exchange = some x ∧ x.t1 = some t1 ∧ x.limit.isSome = true
      ∧ x.number = cell.sequence ∧ eligible s n = true ∧ replyFails n x cell t1 s
      ∧ onCable (replyStamps cell t1 s) = 10001)
    ∧ (∃ (n : Link) (cell : RxCell) (x : Exchange) (t1 : Time) (s : State), (s.port n).state = .up
      ∧ cell.body.length = 20 ∧ (s.sync n).exchange = some x ∧ x.t1 = some t1 ∧ x.limit.isSome = true
      ∧ x.number = cell.sequence ∧ eligible s n = true ∧ replyFails n x cell t1 s) :=
  ⟨⟨5, replyCell, serving, by decide⟩,
   ⟨5, replyCell, openExchange, exchanging 5 openExchange (entryIn 5 .faulted), by decide⟩,
   ⟨5, replyCell, { openExchange with stale := true }, 999000,
     exchanging 5 { openExchange with stale := true } serving, by decide, by decide, by decide, by decide, by decide,
     by decide, by decide, Or.inr (Or.inr (Or.inr (Or.inr (Or.inr (Or.inl rfl))))), by decide⟩,
   ⟨0, { replyCell with flags := 8 }, openExchange, 999000,
     (exchanging 0 openExchange serving).modTb fun b => { b with missing := 3 }, by decide, by decide, by decide,
     by decide, by decide, by decide, by decide, Or.inl (by decide), by decide⟩,
   ⟨5, slowReply, openExchange, 999000,
     (exchanging 5 openExchange serving).modSync 5 fun l => { l with missing := 3, follower := .timed }, by decide,
     by decide, by decide, by decide, by decide, by decide, by decide,
     Or.inr (Or.inr (Or.inr (Or.inr (Or.inl (by decide))))), by decide⟩,
   ⟨5, farReply, openExchange, 999000, exchanging 5 openExchange serving, by decide, by decide, by decide, by decide,
     by decide, by decide, by decide,
     Or.inr (Or.inr (Or.inr (Or.inr (Or.inr (Or.inr (⟨500, 0, false, by unfold delayProduced delayTaken; decide,
     by decide⟩))))))⟩⟩

theorem met_FollowerRepliesAreUsed :
    (∃ (n : Link) (cell : RxCell) (t1 : Time) (d shift : Nat) (cable : Bool) (theta : Int) (s : State),
      usedReply n cell t1 d shift cable theta s ∧ SourceLaw s ∧ s.tb.source ≠ .link n
      ∧ keepsSource s n (replyGrade cell))
    ∧ (∃ (n : Link) (cell : RxCell) (t1 : Time) (d shift : Nat) (cable : Bool) (theta : Int) (s : State),
      usedReply n cell t1 d shift cable theta s ∧ SourceLaw s ∧ s.tb.source ≠ .link n
      ∧ keepsSource s n (replyGrade cell))
    ∧ (∃ (n : Link) (cell : RxCell) (t1 : Time) (d shift : Nat) (cable : Bool) (theta : Int) (s : State),
      usedReply n cell t1 d shift cable theta s ∧ SourceLaw s ∧ s.tb.source ≠ .link n
      ∧ keepsSource s n (replyGrade cell) ∧ (s.sync n).follower = .settling ∧ 3 ≤ (s.sync n).within)
    ∧ (∃ (n : Link) (cell : RxCell) (t1 : Time) (d shift : Nat) (cable : Bool) (theta : Int) (s : State),
      usedReply n cell t1 d shift cable theta s ∧ SourceLaw s ∧ s.tb.source ≠ .link n
      ∧ keepsSource s n (replyGrade cell) ∧ (s.sync n).follower = .timed ∧ (s.sync n).beyond = 1)
    ∧ (∃ (n : Link) (cell : RxCell) (t1 : Time) (d shift : Nat) (cable : Bool) (theta : Int) (s : State),
      usedReply n cell t1 d shift cable theta s ∧ s.tb.source ≠ .link n ∧ bestWith s n (replyGrade cell)) :=
  ⟨⟨5, replyCell, 999000, 500, 0, false, 0, exchanging 5 openExchange pendingEntry,
    used_reply _ _ _ _ _ _ _ (by decide) (by decide) (by decide) (by unfold delayTaken; decide) (by decide),
    following_law, by decide, Or.inl (by decide)⟩,
   ⟨5, replyCell, 999000, 500, 0, true, 0, recabled,
     used_reply _ _ _ _ _ _ _ (by decide) (by decide) (by decide) (by unfold delayTaken; decide) (by decide),
     recabled_law, by decide,
     Or.inr (Or.inr ⟨0, by decide, Or.inr ⟨by decide, [0, 1, 2, 3, 4], [], by decide, by decide, by decide⟩⟩)⟩,
   ⟨5, replyCell, 999000, 500, 0, false, 0,
     (exchanging 5 openExchange pendingEntry).modSync 5 fun l => { l with follower := .settling, within := 3 },
     used_reply _ _ _ _ _ _ _ (by decide) (by decide) (by decide) (by unfold delayTaken; decide) (by decide),
     source_zero _ (by decide) rfl, by decide, Or.inl (by decide), rfl, by decide⟩,
   ⟨5, replyCell, 999000, 938, 2, false, -438, (exchanging 5 openExchange pendingEntry).modSync 5 fun l =>
     { l with delay := some 1000, shift := 1, follower := .timed, beyond := 1 },
     used_reply _ _ _ _ _ _ _ (by decide) (by decide) (by decide) (by unfold delayTaken; decide) (by decide),
     source_zero _ (by decide) rfl, by decide, Or.inl (by decide), rfl, by decide⟩,
   ⟨5, replyCell, 999000, 500, 0, false, 0, exchanging 5 openExchange serving,
     used_reply _ _ _ _ _ _ _ (by decide) (by decide) (by decide) (by unfold delayTaken; decide) (by decide),
     by decide, ⟨by decide, by decide, [0, 1, 2, 3, 4], [], by decide, by decide, by decide⟩⟩⟩

theorem met_SourceRepliesSteer :
    (∃ (n : Link) (cell : RxCell) (t1 : Time) (d shift : Nat) (cable : Bool) (theta : Int) (s : State),
      usedReply n cell t1 d shift cable theta s ∧ s.tb.source = .link n ∧ bestWith s n (replyGrade cell)
      ∧ s.tb.state = .locked)
    ∧ (∃ (n : Link) (cell : RxCell) (t1 : Time) (d shift : Nat) (cable : Bool) (theta : Int) (s : State),
      usedReply n cell t1 d shift cable theta s ∧ s.tb.source = .link n ∧ bestWith s n (replyGrade cell)
      ∧ s.tb.state = .acquiring)
    ∧ (∃ (n : Link) (cell : RxCell) (t1 : Time) (d shift : Nat) (cable : Bool) (theta : Int) (s : State),
      usedReply n cell t1 d shift cable theta s ∧ s.tb.source = .link n ∧ bestWith s n (replyGrade cell)
      ∧ s.tb.state = .holdover)
    ∧ (∃ (n : Link) (cell : RxCell) (t1 : Time) (d shift : Nat) (cable : Bool) (theta : Int) (s : State),
      usedReply n cell t1 d shift cable theta s ∧ s.tb.source = .link n ∧ bestWith s n (replyGrade cell)
      ∧ s.tb.state = .acquiring ∧ s.tb.permitUsed = false ∧ s.tb.stepThreshold < theta.natAbs) :=
  ⟨⟨0, replyCell, 999000, 500, 0, false, 0, steering .locked, steering_used .locked, by decide,
    steering_best .locked, rfl⟩,
   ⟨0, replyCell, 999000, 500, 0, false, 0, steering .acquiring, steering_used .acquiring, by decide,
     steering_best .acquiring, rfl⟩,
   ⟨0, replyCell, 999000, 500, 0, false, 0, steering .holdover, steering_used .holdover, by decide,
     steering_best .holdover, rfl⟩,
   ⟨0, lateReply, 999000, 500, 0, false, 15000, steering .acquiring, stepping_used, by decide,
     steering_best .acquiring, by decide⟩⟩

theorem met_TriggerEventsFireAndSkip :
    (∃ (i : TrigIx) (s u : State), (s.trig i).state = .armed
      ∧ u = advanceToRack ((s.trig i).compare.toNat - s.lead) s ∧ (s.trig i).compare.toNat ≤ u.rack.toNat + s.lead)
    ∧ (∃ (i : TrigIx) (k : Nat) (s u : State), (s.trig i).state = .armed ∧ (s.trig i).mode = .atTime
      ∧ 0 < (s.trig i).period ∧ (s.trig i).repeats ≠ 1 ∧ u = advanceToRack ((s.trig i).compare.toNat - s.lead) s
      ∧ (s.trig i).compare.toNat ≤ u.rack.toNat + s.lead ∧ 0 < k
      ∧ (s.trig i).compare.toNat + k * (s.trig i).period ≤ u.rack.toNat + s.lead
      ∧ u.rack.toNat + s.lead < (s.trig i).compare.toNat + (k + 1) * (s.trig i).period
      ∧ (s.trig i).compare.toNat + (k + 1) * (s.trig i).period < 2 ^ 64)
    ∧ (∃ (i : TrigIx) (p : PendingPulse) (s u : State), (s.trig i).pulse = some p
      ∧ u = advanceToRack p.compare.toNat s ∧ p.compare.toNat ≤ u.rack.toNat) :=
  ⟨⟨15, withTrig armed1, advanceToRack 980000 (withTrig armed1), by decide, rfl, by decide⟩,
   ⟨15, 1, withTrig armed1, advanceToRack 980000 (withTrig armed1), by decide, by decide, by decide, by decide, rfl,
     by decide⟩,
   ⟨15, { compare := 1000001, panel := true, links := 63, left := 1 },
     (withTrig { TrigEntry.free with pulse := some { compare := 1000001, panel := true, links := 63, left := 1 } }),
     advanceToRack 1000001 (withTrig { TrigEntry.free with pulse := some { compare := 1000001, panel := true, links := 63, left := 1 } }),
     by decide, rfl, by decide⟩⟩

theorem met_CapturesAreMade :
    (∃ (c : Instr) (k : Capture) (s u : State), captureMade c s u k ∧ s.captures ≠ [] ∧ nobodyWaits s k.source)
    ∧ (∃ (c : Instr) (k : Capture) (s u : State), captureMade c s u k ∧ s.captures ≠ [] ∧ nobodyWaits s k.source)
    ∧ (∃ (c : Instr) (k : Capture) (s u : State), captureMade c s u k ∧ s.captures ≠ [] ∧ nobodyWaits s k.source)
    ∧ (∃ (c : Instr) (k : Capture) (s u : State), captureMade c s u k ∧ s.captures ≠ [] ∧ nobodyWaits s k.source)
    ∧ (∃ (n : Link) (cell : RxCell) (s : State), (s.port n).state = .up ∧ cell.body.length ≠ 4)
    ∧ (∃ (c : Instr) (k : Capture) (s u : State), captureMade c s u k ∧ s.captures = [] ∧ nobodyWaits s k.source)
    ∧ (∃ (c : Instr) (k : Capture) (i : TrigIx) (d : Nat) (s u : State), captureMade c s u k ∧ onSource s i k.source
      ∧ (s.trig i).state = .waiting ∧ (s.trig i).delay = some d ∧ s.rack.toNat + s.lead < k.time.toNat + d
      ∧ k.time.toNat + d < 2 ^ 64)
    ∧ (∃ (c : Instr) (k : Capture) (i : TrigIx) (s u : State), captureMade c s u k ∧ onSource s i k.source
      ∧ (s.trig i).state = .armed)
    ∧ (∃ (c : Instr) (k : Capture) (i : TrigIx) (d : Nat) (s u armed : State), captureMade c s u k
      ∧ onSource s i k.source ∧ (s.trig i).state = .waiting ∧ (s.trig i).delay = some d
      ∧ k.time.toNat + d ≤ s.rack.toNat + s.lead ∧ k.time.toNat + d < 2 ^ 64 ∧ s.captures ≠ []
      ∧ (∀ j, j ≠ i → onSource s j k.source → (s.trig j).state = .free ∨ (s.trig j).state = .done)
      ∧ armed = (captureLeaves k u).modTrig i (fun e =>
      { e with state := .armed, compare := BitVec.ofNat 64 (k.time.toNat + d) })) :=
  ⟨⟨.trigEdge 5 .rising, _, captured1, _, Or.inl ⟨5, rfl, by decide, by decide, by decide, rfl, rfl⟩, by decide,
    (by unfold nobodyWaits; decide)⟩,
   ⟨.triginEdge .rising, _, captured1, _, Or.inr (Or.inl ⟨rfl, by decide, rfl, rfl⟩), by decide,
     (by unfold nobodyWaits; decide)⟩,
   ⟨.triggerCellReceived 5 (cellOf [15, 0, 0, 0]), _, captured1, _,
     Or.inr (Or.inr ⟨5, _, rfl, by decide, by decide, rfl, Or.inl ⟨by decide, rfl⟩⟩), by decide,
     (by unfold nobodyWaits; decide)⟩,
   ⟨.triggerCellReceived 5 (cellOf [15, 0, 0, 0]), _, captured1.modSync 5 fun l => { l with delay := some 1000000 },
     _, Or.inr (Or.inr ⟨5, _, rfl, by decide, by decide, rfl, Or.inr ⟨1000000, by decide, by decide, rfl⟩⟩),
     by decide, (by unfold nobodyWaits; decide)⟩,
   ⟨5, cellOf [15], captured1, by decide⟩,
   ⟨.triginEdge .rising, _, serving, _, Or.inr (Or.inl ⟨rfl, by decide, rfl, rfl⟩), by decide,
     (by unfold nobodyWaits; decide)⟩,
   ⟨.trigEdge 5 .rising, _, 15, 20001, withTrig waiting1, _,
     Or.inl ⟨5, rfl, by decide, by decide, by decide, rfl, rfl⟩, ⟨by decide, by decide⟩, by decide⟩,
   ⟨.triggerCellReceived 5 (cellOf [15, 0, 0, 0]), _, 15, withTrig { waiting1 with state := .armed }, _,
     Or.inr (Or.inr ⟨5, _, rfl, by decide, by decide, rfl, Or.inl ⟨by decide, rfl⟩⟩), ⟨by decide, by decide⟩,
     by decide⟩,
   ⟨.trigEdge 5 .rising, _, 15, 20000,
     { withTrig { waiting1 with delay := some 20000 } with captures := [capture1] }, _, _,
     Or.inl ⟨5, rfl, by decide, by decide, by decide, rfl, rfl⟩, ⟨by decide, by decide⟩, by decide, by decide,
     by decide, by decide, by decide, (by unfold onSource; decide), rfl⟩⟩

theorem met_TrigArmWritesTheEntry :
    (∃ (q : Request) (i : TrigIx) (a : ArmArgs) (s : State), Taken q kindTrigArm false s
      ∧ indexArg 16 q.args = some i ∧ mayModifyTrig s q.requester i = true
      ∧ ((s.trig i).owner = none ∨ (s.trig i).owner = some q.requester) ∧ armArgs s.lead (q.args.drop 1) = some a
      ∧ ((s.trig i).state = .free ∨ (s.trig i).state = .done)
      ∧ (a.mode = .onCapture ∨ s.rack.toNat + s.lead < a.compare.toNat))
    ∧ (∃ (q : Request) (i : TrigIx) (a : ArmArgs) (s : State), Taken q kindTrigArm false s
      ∧ armArgs s.lead (q.args.drop 1) = some a ∧ qualifies s q.requester i = true
      ∧ (∀ j, j < i → qualifies s q.requester j = false)
      ∧ (a.mode = .onCapture ∨ s.rack.toNat + s.lead < a.compare.toNat))
    ∧ (∃ (q : Request) (a : ArmArgs) (s : State), Taken q kindTrigArm false s
      ∧ armArgs s.lead (q.args.drop 1) = some a ∧ (∀ j, qualifies s q.requester j = false))
    ∧ (∃ (c : Instr) (q : Request) (i : TrigIx) (a : ArmArgs) (s u : State), armsEntry c q i a s ∧ a.mode = .atTime
      ∧ a.compare.toNat ≤ s.rack.toNat + s.lead ∧ u = (arrived q s).modTrig i (fun e => armedFrom q.requester a e))
    ∧ (∃ (c : Instr) (q : Request) (i : TrigIx) (a : ArmArgs) (s u : State), armsEntry c q i a s ∧ a.mode = .atTime
      ∧ a.compare.toNat ≤ s.rack.toNat + s.lead ∧ u = (arrived q s).modTrig i (fun e => armedFrom q.requester a e))
    ∧ (∃ (q : Request) (s : State), Taken q kindTrigArm false s ∧ indexArg 16 q.args = none)
    ∧ (∃ (q : Request) (s : State), Taken q kindTrigArm false s ∧ indexArg 16 q.args = some 15
      ∧ mayModifyTrig s q.requester 15 = false)
    ∧ (∃ (q : Request) (s : State), Taken q kindTrigArm false s ∧ indexArg 16 q.args = some 15
      ∧ mayModifyTrig s q.requester 15 = true ∧ (s.trig 15).owner ≠ none ∧ (s.trig 15).owner ≠ some q.requester)
    ∧ (∃ (q : Request) (s : State), Taken q kindTrigArm false s ∧ indexArg 16 q.args = some 15
      ∧ mayModifyTrig s q.requester 15 = true ∧ (s.trig 15).owner = none ∧ armArgs s.lead (q.args.drop 1) = none)
    ∧ (∃ (q : Request) (s : State), Taken q kindTrigArm false s ∧ indexArg 16 q.args = some 15
      ∧ mayModifyTrig s q.requester 15 = true ∧ (s.trig 15).owner = some q.requester
      ∧ armArgs s.lead (q.args.drop 1) = some armArgs1 ∧ (s.trig 15).state = .armed) :=
  ⟨⟨fr 5 (15 :: armBytes), 15, armArgs1, serving, ⟨rfl, rfl, rfl⟩, by decide⟩,
   ⟨fr 5 (255 :: armBytes), 1, armArgs1, serving.modTrig 0 fun _ => armed1, ⟨rfl, rfl, rfl⟩, by decide⟩,
   ⟨fr 5 (255 :: armBytes), armArgs1, { serving with trigs := Vector.replicate 16 armed1 }, ⟨rfl, rfl, rfl⟩,
     by decide⟩,
   ⟨.trigArm (fr 5 (15 :: dueBytes)), fr 5 (15 :: dueBytes), 15, { armArgs1 with compare := 1020000 }, serving, _,
     ⟨⟨rfl, rfl, rfl⟩, by decide, Or.inl (by decide)⟩, by decide, by decide, rfl⟩,
   ⟨.trigArmAny (fr 5 (255 :: dueBytes)), fr 5 (255 :: dueBytes), 1, { armArgs1 with compare := 1020000 },
     serving.modTrig 0 fun _ => armed1, _, ⟨⟨rfl, rfl, rfl⟩, by decide, Or.inr (by decide)⟩, by decide, by decide,
     rfl⟩,
   ⟨fr 5 [16], serving, ⟨rfl, rfl, rfl⟩, by decide⟩,
   ⟨fr 5 [15], locked, ⟨rfl, rfl, rfl⟩, by decide⟩,
   ⟨fr 5 (15 :: armBytes), withTrig { armed1 with owner := some .rcp, state := .done }, ⟨rfl, rfl, rfl⟩, by decide⟩,
   ⟨fr 5 [15], serving, ⟨rfl, rfl, rfl⟩, by decide⟩,
   ⟨fr 5 (15 :: armBytes), withTrig { armed1 with owner := some (.frame 5) }, ⟨rfl, rfl, rfl⟩, by decide⟩⟩

theorem met_TrigRequestsActOnEntries :
    (∃ (q : Request) (i : TrigIx) (s : State), Taken q kindTrigCancel false s ∧ indexArg 16 q.args = some i
      ∧ mayModifyTrig s q.requester i = true ∧ ((s.trig i).state = .waiting ∨ (s.trig i).state = .armed))
    ∧ (∃ (q : Request) (i : TrigIx) (s : State), Taken q kindTrigCancel false s ∧ indexArg 16 q.args = some i
      ∧ mayModifyTrig s q.requester i = true ∧ ((s.trig i).state = .free ∨ (s.trig i).state = .done))
    ∧ (∃ (q : Request) (i : TrigIx) (s : State), Taken q kindTrigRelease false s ∧ indexArg 16 q.args = some i
      ∧ mayModifyTrig s q.requester i = true ∧ (s.trig i).state = .done)
    ∧ (∃ (q : Request) (i : TrigIx) (s : State), Taken q kindTrigRelease false s ∧ indexArg 16 q.args = some i
      ∧ mayModifyTrig s q.requester i = true ∧ (s.trig i).state ≠ .done)
    ∧ (∃ (q : Request) (x : Nat) (rest : List Byte) (s : State), Taken q kindTrigConfig false s
      ∧ read32 q.args = some (x, rest)
      ∧ (∀ i, (s.trig i).state = .armed → s.rack.toNat + min x 100000 < (s.trig i).compare.toNat))
    ∧ (∃ (q : Request) (x : Nat) (rest : List Byte) (s u : State), Taken q kindTrigConfig false s
      ∧ read32 q.args = some (x, rest) ∧ u = { arrived q s with lead := min x 100000 } ∧ dueAt u u.rack.toNat 15
      ∧ (∀ j, j ≠ 15 → ¬ dueAt u u.rack.toNat j))
    ∧ (∃ (q : Request) (x : Nat) (rest : List Byte) (s u : State), Taken q kindTrigConfig false s
      ∧ read32 q.args = some (x, rest) ∧ u = { arrived q s with lead := min x 100000 } ∧ dueAt u u.rack.toNat 15
      ∧ (u.trig 15).compare.toNat + 5 * (u.trig 15).period ≤ u.rack.toNat + u.lead
      ∧ u.rack.toNat + u.lead < (u.trig 15).compare.toNat + 6 * (u.trig 15).period ∧ 5 + 1 < (u.trig 15).repeats) :=
  ⟨⟨fr 5 [15], 15, withTrig armed1, ⟨rfl, rfl, rfl⟩, by decide⟩,
   ⟨fr 5 [15], 15, serving, ⟨rfl, rfl, rfl⟩, by decide⟩,
   ⟨fr 5 [15], 15, withTrig { armed1 with state := .done }, ⟨rfl, rfl, rfl⟩, by decide⟩,
   ⟨fr 5 [15], 15, withTrig armed1, ⟨rfl, rfl, rfl⟩, by decide⟩,
   ⟨rcp [0, 1, 0x86, 0xA0], 100000, [], withTrig { armed1 with compare := 1100001 }, ⟨rfl, rfl, rfl⟩, by decide⟩,
   ⟨rcp [0, 1, 0x86, 0xA0], 100000, [], withTrig { armed1 with compare := 1100000 },
     { withTrig { armed1 with compare := 1100000 } with lead := 100000 }, ⟨rfl, rfl, rfl⟩, by decide, rfl,
     by unfold dueAt; decide, by unfold dueAt; decide⟩,
   ⟨rcp [0, 0, 0x27, 0x10], 10000, [], withTrig { armed1 with compare := 900000, repeats := 7 },
     { withTrig { armed1 with compare := 900000, repeats := 7 } with lead := 10000 }, ⟨rfl, rfl, rfl⟩, by decide,
     rfl, by unfold dueAt; decide, by decide⟩⟩

theorem met_CaptureQueueIsFirstInFirstOut :
    (∃ (q : Request) (c : Capture) (rest : List Capture) (s : State), Taken q kindCapturePeek false s
      ∧ mayRead s q.requester .capture 0 = true ∧ s.captures = c :: rest)
    ∧ (∃ (q : Request) (s : State), Taken q kindCapturePeek false s ∧ mayRead s q.requester .capture 0 = true
      ∧ s.captures = [])
    ∧ (∃ (q : Request) (c : Capture) (rest : List Capture) (s : State), Taken q kindCapturePop false s
      ∧ mayModify s q.requester .capture 0 = true ∧ s.captures = c :: rest)
    ∧ (∃ (q : Request) (s : State), Taken q kindCapturePop false s ∧ mayModify s q.requester .capture 0 = true
      ∧ s.captures = [])
    ∧ (∃ (q : Request) (s : State), Taken q kindCapturePeek false s ∧ mayRead s q.requester .capture 0 = false)
    ∧ (∃ (q : Request) (s : State), Taken q kindCapturePop false s ∧ mayModify s q.requester .capture 0 = false)
    ∧ (∃ (q : Request) (n : Link) (s : State), q.requester = .frame n ∧ (s.entry n).state = .draining ∧ Heard q s
      ∧ s.busy q.requester = false) :=
  ⟨⟨fr 5 [], capture1, [], captured1, ⟨rfl, rfl, rfl⟩, by decide⟩,
   ⟨fr 5 [], serving, ⟨rfl, rfl, rfl⟩, by decide⟩,
   ⟨fr 5 [], capture1, [], captured1, ⟨rfl, rfl, rfl⟩, by decide⟩,
   ⟨fr 5 [], serving, ⟨rfl, rfl, rfl⟩, by decide⟩,
   ⟨fr 5 [], locked, ⟨rfl, rfl, rfl⟩, by decide⟩,
   ⟨fr 5 [], readOnly, ⟨rfl, rfl, rfl⟩, by decide⟩,
   ⟨fr 5 [], 5, draining, by decide, by decide, rfl, by decide⟩⟩

theorem met_BlocksAreFilteredInOrder :
    (∃ (n : Link) (s : State), (s.port n).state = .up ∧ s.ready = false)
    ∧ (∃ (n : Link) (s : State), (s.port n).state = .up ∧ s.ready = true ∧ (s.entry n).state ≠ .active)
    ∧ (∃ (n : Link) (cell : RxCell) (s : State), (s.port n).state = .up ∧ s.ready = true
      ∧ (s.entry n).state = .active
      ∧ (∀ b, blockOf cell = some b → b.stream = 0 ∨ ∀ i, ∀ r ∈ s.route i, r.stream ≠ b.stream))
    ∧ (∃ (n : Link) (cell : RxCell) (b : Slot) (i : RouteIx) (r : Route) (s : State), (s.port n).state = .up
      ∧ s.ready = true ∧ (s.entry n).state = .active ∧ blockOf cell = some b ∧ RouteLaw s ∧ s.route i = some r
      ∧ r.stream = b.stream ∧ r.source ≠ n)
    ∧ (∃ (n : Link) (cell : RxCell) (b : Slot) (i : RouteIx) (r : Route) (s : State), (s.port n).state = .up
      ∧ s.ready = true ∧ (s.entry n).state = .active ∧ blockOf cell = some b ∧ RouteLaw s ∧ s.route i = some r
      ∧ r.stream = b.stream ∧ r.source = n)
    ∧ (∃ (n : Link) (cell : RxCell) (b : Slot) (i : RouteIx) (r : Route) (s : State), (s.port n).state = .up
      ∧ s.ready = true ∧ (s.entry n).state = .active ∧ blockOf cell = some b ∧ RouteLaw s ∧ s.route i = some r
      ∧ r.stream = b.stream ∧ r.source = n ∧ r.egress = 0)
    ∧ (∃ (n : Link) (cell : RxCell) (b : Slot) (i : RouteIx) (r : Route) (s : State), (s.port n).state = .up
      ∧ s.ready = true ∧ (s.entry n).state = .active ∧ blockOf cell = some b ∧ RouteLaw s ∧ s.route i = some r
      ∧ r.stream = b.stream ∧ r.source = n ∧ r.egress ≠ 0 ∧ r.gate = some { start := 1000, stop := 1001 }
      ∧ (¬ ((s.sync n).follower = .timed ∨ (s.tb.source = .link n ∧ s.tb.state = .locked))))
    ∧ (∃ (n : Link) (cell : RxCell) (b : Slot) (i : RouteIx) (r : Route) (s : State), (s.port n).state = .up
      ∧ s.ready = true ∧ (s.entry n).state = .active ∧ blockOf cell = some b ∧ RouteLaw s ∧ s.route i = some r
      ∧ r.stream = b.stream ∧ r.source = n ∧ r.egress ≠ 0 ∧ r.gate = some { start := 1, stop := 1000 }
      ∧ ((s.sync n).follower = .timed ∨ (s.tb.source = .link n ∧ s.tb.state = .locked))
      ∧ (cell.stamp < 1 ∨ 1000 ≤ cell.stamp))
    ∧ (∃ (n : Link) (cell : RxCell) (b : Slot) (i : RouteIx) (r : Route) (s : State), (s.port n).state = .up
      ∧ s.ready = true ∧ (s.entry n).state = .active ∧ blockOf cell = some b ∧ RouteLaw s ∧ s.route i = some r
      ∧ r.stream = b.stream ∧ r.source = n ∧ r.egress ≠ 0 ∧ gatePasses n cell r s ∧ (∀ j, s.slot j ≠ none))
    ∧ (∃ (n : Link) (cell : RxCell) (b : Slot) (i : RouteIx) (r : Route) (s : State), (s.port n).state = .up
      ∧ s.ready = true ∧ (s.entry n).state = .active ∧ blockOf cell = some b ∧ RouteLaw s ∧ s.route i = some r
      ∧ r.stream = b.stream ∧ r.source = n ∧ r.egress ≠ 0 ∧ r.gate = some { start := 1000, stop := 1001 }
      ∧ gatePasses n cell r s ∧ (∀ j, s.slot j ≠ none)) :=
  ⟨⟨5, { serving with ready := false }, by decide⟩,
   ⟨5, draining, by decide⟩,
   ⟨5, blockCell, serving, by decide, by decide, by decide, fun b _ => Or.inr (serving_no_route b.stream)⟩,
   ⟨4, blockCell, block, 3, route1, routed route1, by decide, by decide, by decide, by decide,
     routed_law route1 (by decide) (by decide), by decide⟩,
   ⟨5, blockCell, block, 3, route1, routed route1, by decide, by decide, by decide, by decide,
     routed_law route1 (by decide) (by decide), by decide⟩,
   ⟨5, blockCell, block, 3, { route1 with egress := 0 }, routed { route1 with egress := 0 }, by decide, by decide,
     by decide, by decide, routed_law { route1 with egress := 0 } (by decide) (by decide), by decide⟩,
   ⟨5, blockCell, block, 3, { route1 with gate := some { start := 1000, stop := 1001 } },
     routed { route1 with gate := some { start := 1000, stop := 1001 } }, by decide, by decide, by decide, by decide,
     routed_law { route1 with gate := some { start := 1000, stop := 1001 } } (by decide) (by decide), by decide⟩,
   ⟨5, blockCell, block, 3, { route1 with gate := some { start := 1, stop := 1000 } },
     (routed { route1 with gate := some { start := 1, stop := 1000 } }).modSync 5 fun l =>
     { l with follower := .timed }, by decide, by decide, by decide, by decide,
     routed_law { route1 with gate := some { start := 1, stop := 1000 } } (by decide) (by decide), by decide⟩,
   ⟨5, blockCell, block, 3, route1, { routed route1 with pool := Vector.replicate 96 (some block) }, by decide,
     by decide, by decide, by decide, routed_law route1 (by decide) (by decide), by decide, by decide, by decide,
     by decide, by unfold gatePasses; decide, by decide⟩,
   ⟨5, blockCell, block, 3, { route1 with gate := some { start := 1000, stop := 1001 } },
     { (routed { route1 with gate := some { start := 1000, stop := 1001 } }).modSync 5 (fun l => { l with follower := .timed }) with pool := Vector.replicate 96 (some block) },
     by decide, by decide, by decide, by decide,
     routed_law { route1 with gate := some { start := 1000, stop := 1001 } } (by decide) (by decide), by decide,
     by decide, by decide, by decide, by decide, by unfold gatePasses; decide, by decide⟩⟩

theorem met_RoutedBlocksFanOut :
    (∃ (n : Link) (cell : RxCell) (b : Slot) (i : RouteIx) (r : Route) (j : SlotIx) (taken : List Link) (s : State),
      (s.port n).state = .up ∧ s.ready = true ∧ (s.entry n).state = .active ∧ blockOf cell = some b ∧ RouteLaw s
      ∧ s.route i = some r ∧ r.stream = b.stream ∧ r.source = n ∧ r.egress ≠ 0 ∧ gatePasses n cell r s
      ∧ s.slot j = none ∧ (∀ k, k < j → s.slot k ≠ none)
      ∧ taken = allLinks.filter (fun (e : Link) => r.egress.getLsbD e && egressEligible s e
      && decide ((classQueue r.cls (s.queues e)).length < 24)) ∧ (∀ e ∈ taken, idleAt e s → nothingWaits e s)
      ∧ (r.cls = .normal → ∀ h ∈ s.holds, h.egress ∈ taken → ¬ idleAt h.egress s))
    ∧ (∃ (n : Link) (cell : RxCell) (b : Slot) (i : RouteIx) (r : Route) (j : SlotIx) (taken : List Link) (s :
      State), (s.port n).state = .up ∧ s.ready = true ∧ (s.entry n).state = .active ∧ blockOf cell = some b
      ∧ RouteLaw s ∧ s.route i = some r ∧ r.stream = b.stream ∧ r.source = n ∧ r.egress ≠ 0 ∧ gatePasses n cell r s
      ∧ s.slot j = none ∧ (∀ k, k < j → s.slot k ≠ none)
      ∧ taken = allLinks.filter (fun (e : Link) => r.egress.getLsbD e && egressEligible s e
      && decide ((classQueue r.cls (s.queues e)).length < 24)) ∧ (∀ e ∈ taken, idleAt e s → nothingWaits e s)
      ∧ (r.cls = .normal → ∀ h ∈ s.holds, h.egress ∈ taken → ¬ idleAt h.egress s))
    ∧ (∃ (n : Link) (cell : RxCell) (b : Slot) (i : RouteIx) (r : Route) (j : SlotIx) (taken : List Link) (s :
      State), (s.port n).state = .up ∧ s.ready = true ∧ (s.entry n).state = .active ∧ blockOf cell = some b
      ∧ RouteLaw s ∧ s.route i = some r ∧ r.stream = b.stream ∧ r.source = n ∧ r.egress ≠ 0 ∧ gatePasses n cell r s
      ∧ s.slot j = none ∧ (∀ k, k < j → s.slot k ≠ none)
      ∧ taken = allLinks.filter (fun (e : Link) => r.egress.getLsbD e && egressEligible s e
      && decide ((classQueue r.cls (s.queues e)).length < 24)) ∧ (∀ e ∈ taken, idleAt e s → nothingWaits e s)
      ∧ (r.cls = .normal → ∀ h ∈ s.holds, h.egress ∈ taken → ¬ idleAt h.egress s) ∧ idleAt 4 s)
    ∧ (∃ (n e : Link) (cell : RxCell) (b : Slot) (i : RouteIx) (r : Route) (j : SlotIx) (s : State),
      (s.port n).state = .up ∧ s.ready = true ∧ (s.entry n).state = .active ∧ blockOf cell = some b ∧ RouteLaw s
      ∧ s.route i = some r ∧ r.stream = b.stream ∧ r.source = n ∧ r.egress = linkBit e ∧ r.cls = .normal
      ∧ gatePasses n cell r s ∧ s.slot j = none ∧ (∀ k, k < j → s.slot k ≠ none) ∧ (s.entry e).state = .active
      ∧ idleAt e s ∧ nothingWaits e s ∧ 1 < s.highMark ∧ s.holds ≠ []) :=
  ⟨⟨5, blockCell, block, 3, route1, 1, [0, 1, 2, 3, 4],
    { routed route1 with ports := Vector.replicate 6 { upPort with tx := some (.cell (.sync (.req 1))) }, pool := (routed route1).pool.set 0 (some block) },
    by decide, by decide, by decide, by decide, routed_law route1 (by decide) (by decide), by decide, by decide,
    by decide, by decide, (fun _ h => by cases h), by decide⟩,
   ⟨5, { blockCell with stamp := 1000000 }, { block with stamp := 1000000 }, 3,
     { route1 with gate := some { start := 1000000, stop := 1000001 } }, 0, [0, 1, 2, 3, 4],
     { (routed { route1 with gate := some { start := 1000000, stop := 1000001 } }).modSync 5 (fun l => { l with follower := .timed }) with ports := Vector.replicate 6 { upPort with tx := some (.cell (.sync (.req 1))) } },
     by decide, by decide, by decide, by decide,
     one_route_law _ { route1 with gate := some { start := 1000000, stop := 1000001 } } (routed_route _)
     (by decide) (by decide) (fun _ h => by cases h) (fun _ h => by cases h), by decide, by decide, by decide,
     by decide, (fun _ h => by cases h; decide), by decide⟩,
   ⟨5, blockCell, block, 3, route1, 0, [0, 1, 2, 3, 4], routed route1, by decide, by decide, by decide, by decide,
     routed_law route1 (by decide) (by decide), by decide, by decide, by decide, by decide, (fun _ h => by cases h),
     by decide⟩,
   ⟨5, 4, blockCell, block, 3, { route1 with egress := 16 }, 0,
     { routed { route1 with egress := 16 } with holds := [hold1] }, by decide, by decide, by decide, by decide,
     one_route_law _ { route1 with egress := 16 } (routed_route _) (by decide) (by decide) (fun _ h => by cases h)
     (fun _ h => by cases h), by decide, by decide, by decide, by decide, by decide, (fun _ h => by cases h),
     by decide⟩⟩

theorem met_FullQueuesHoldTheSource :
    (∃ (n e : Link) (cell : RxCell) (b : Slot) (s : State), appendsHigh n e cell b s
      ∧ ((s.port e).state = .up → (s.port e).tx ≠ none) ∧ s.holds.length < 16
      ∧ (∀ h ∈ s.holds, h.stream = b.stream → h.egress ≠ e) ∧ s.rack.toNat + s.holdTime * 1000 < 2 ^ 64)
    ∧ (∃ (n e : Link) (cell : RxCell) (b : Slot) (s : State), appendsHigh n e cell b s
      ∧ ((s.port e).state = .up → (s.port e).tx ≠ none) ∧ s.holds.length < 16
      ∧ (∀ h ∈ s.holds, h.stream = b.stream → h.egress ≠ e) ∧ s.rack.toNat + s.holdTime * 1000 < 2 ^ 64
      ∧ (s.port n).tx ≠ none)
    ∧ (∃ (n e : Link) (cell : RxCell) (b : Slot) (s : State), appendsHigh n e cell b s
      ∧ ((s.port e).state = .up → (s.port e).tx ≠ none) ∧ 16 ≤ s.holds.length
      ∧ (∀ h ∈ s.holds, h.stream = b.stream → h.egress ≠ e))
    ∧ (∃ (n e : Link) (cell : RxCell) (b : Slot) (h : HoldEntry) (s : State), appendsHigh n e cell b s
      ∧ ((s.port e).state = .up → (s.port e).tx ≠ none) ∧ h ∈ s.holds ∧ h.stream = b.stream ∧ h.egress = e)
    ∧ (∃ (stream : StreamId) (n : Link) (s : State),
      ((∀ i, ∀ r ∈ s.route i, r.stream = stream → r.source ≠ n) ∨ inService (s.port n).state = false)) :=
  ⟨⟨5, 4, blockCell, block, crowded, crowded_appends [], by decide⟩,
   ⟨5, 4, blockCell, block, crowdedBusy, crowded_busy_appends, by decide⟩,
   ⟨5, 4, blockCell, block, { crowded with holds := List.replicate 16 { hold1 with stream := 2 } },
     crowded_appends _, by decide⟩,
   ⟨5, 4, blockCell, block, hold1, { crowded with holds := [hold1] }, crowded_appends _, by decide⟩,
   ⟨1, 5, quiesced, by decide⟩⟩

theorem met_HoldsExpireAndRoutesAge :
    (∃ (h : HoldEntry) (s u : State), h ∈ s.holds ∧ (s.holds.map fun g => (g.stream, g.egress)).Nodup
      ∧ u = advanceToRack h.expiry.toNat s ∧ h.expiry.toNat ≤ u.rack.toNat)
    ∧ (∃ (h : HoldEntry) (s u : State), h ∈ s.holds ∧ (s.holds.map fun g => (g.stream, g.egress)).Nodup
      ∧ u = advanceToRack h.expiry.toNat s ∧ h.expiry.toNat ≤ u.rack.toNat
      ∧ s.lowMark < (s.queues h.egress).normal.length)
    ∧ (∃ (ends : Nat) (s : State), s.agingEnds = some ends)
    ∧ (∃ (rest : List WaitingWrite) (s : State), s.writing = none ∧ s.waiting = .sweep :: rest)
    ∧ (∃ (entries : BitVec 64) (s : State), RouteLaw s ∧ s.writing = some (.sweep entries)) :=
  ⟨⟨{ hold1 with expiry := 1000001 }, { serving with holds := [{ hold1 with expiry := 1000001 }] },
    advanceToRack 1000001 { serving with holds := [{ hold1 with expiry := 1000001 }] }, by decide, by decide, rfl,
    by decide⟩,
   ⟨hold1, { serving.modQueues 4 (fun q => { q with normal := List.replicate 7 0 }) with holds := [hold1] },
     advanceToRack 1000000 { serving.modQueues 4 (fun q => { q with normal := List.replicate 7 0 }) with holds := [hold1] },
     by decide, by decide, rfl, by decide⟩,
   ⟨60000000000, serving, by decide⟩,
   ⟨[], { serving with waiting := [.sweep] }, by decide⟩,
   ⟨8, { routed route1 with writing := some (.sweep 8) }, sweeping_law, by decide⟩⟩

theorem met_RouteWritesRunTheirCourse :
    (∃ (q : Request) (r : RouteSpec) (s : State), Taken q kindRouteSet false s ∧ s.ready = true
      ∧ orphanRuns s q.requester = false ∧ routeArgs q.args = some r)
    ∧ (∃ (q : Request) (i : RouteIx) (s : State), Taken q kindRouteClear false s ∧ s.ready = true
      ∧ orphanRuns s q.requester = false ∧ indexArg 64 q.args = some i)
    ∧ (∃ (q : Request) (s : State), Taken q kindRouteSet false s ∧ orphanRuns s q.requester = true)
    ∧ (∃ (q : Request) (s : State), Taken q kindRouteSet false s ∧ orphanRuns s q.requester = false
      ∧ s.ready = false)
    ∧ (∃ (q : Request) (s : State), Taken q kindRouteSet false s ∧ orphanRuns s q.requester = false ∧ s.ready = true
      ∧ routeArgs q.args = none)
    ∧ (∃ (q : Request) (s : State), Taken q kindRouteClear false s ∧ orphanRuns s q.requester = true)
    ∧ (∃ (q : Request) (s : State), Taken q kindRouteClear false s ∧ orphanRuns s q.requester = false
      ∧ s.ready = true ∧ indexArg 64 q.args = none)
    ∧ (∃ (w : WriteRequest) (r : RouteSpec) (rest : List WaitingWrite) (i : RouteIx) (old : Route) (s : State),
      s.writing = none ∧ s.waiting = .set w r :: rest ∧ RouteLaw s ∧ s.route i = some old ∧ old.stream = r.stream)
    ∧ (∃ (w : WriteRequest) (r : RouteSpec) (rest : List WaitingWrite) (i : RouteIx) (old : Route) (s : State),
      s.writing = none ∧ s.waiting = .set w r :: rest ∧ RouteLaw s ∧ s.route i = some old ∧ old.stream = r.stream
      ∧ w.modify.getLsbD i.val = false ∧ old.owner ≠ some w.requester)
    ∧ (∃ (w : WriteRequest) (r : RouteSpec) (rest : List WaitingWrite) (i : RouteIx) (s : State), s.writing = none
      ∧ s.waiting = .set w r :: rest ∧ (∀ j, ∀ old ∈ s.route j, old.stream ≠ r.stream) ∧ s.route i = none
      ∧ w.modify.getLsbD i.val = true ∧ (∀ j, j < i → s.route j = none → w.modify.getLsbD j.val = false))
    ∧ (∃ (w : WriteRequest) (r : RouteSpec) (rest : List WaitingWrite) (s : State), s.writing = none
      ∧ s.waiting = .set w r :: rest ∧ (∀ j, ∀ old ∈ s.route j, old.stream ≠ r.stream)
      ∧ (∀ j, s.route j = none → w.modify.getLsbD j.val = false))
    ∧ (∃ (w : WriteRequest) (i : RouteIx) (rest : List WaitingWrite) (s : State), s.writing = none
      ∧ s.waiting = .clear w i :: rest)
    ∧ (∃ (w : WriteRequest) (i : RouteIx) (rest : List WaitingWrite) (s : State), s.writing = none
      ∧ s.waiting = .clear w i :: rest ∧ s.route i = some route1 ∧ route1.owner = some w.requester)
    ∧ (∃ (w : WriteRequest) (i : RouteIx) (rest : List WaitingWrite) (s : State), s.writing = none
      ∧ s.waiting = .clear w i :: rest ∧ s.route i = some route1 ∧ w.modify.getLsbD i.val = false
      ∧ route1.owner ≠ some w.requester)
    ∧ (∃ (w : WriteRequest) (r : RouteSpec) (i : RouteIx) (old : Route) (s : State),
      s.writing = some (.replace w r i) ∧ s.route i = some old)
    ∧ (∃ (w : WriteRequest) (r : RouteSpec) (i : RouteIx) (s : State), s.writing = some (.create w r i))
    ∧ (∃ (w : WriteRequest) (i : RouteIx) (old : Route) (s : State), s.writing = some (.clear w i)
      ∧ s.route i = some old) :=
  ⟨⟨fr 5 [0, 1, 5, 31, 0, 0, 0], spec1, serving, ⟨rfl, rfl, rfl⟩, by decide⟩,
   ⟨fr 5 [63], 63, serving, ⟨rfl, rfl, rfl⟩, by decide⟩,
   ⟨fr 5 [], { serving with waiting := [.set { write1 with orphaned := true } spec1] }, ⟨rfl, rfl, rfl⟩, by decide⟩,
   ⟨fr 5 [0, 0], { serving with ready := false }, ⟨rfl, rfl, rfl⟩, by decide⟩,
   ⟨fr 5 [0x10, 0, 5, 31, 0, 0, 0], serving, ⟨rfl, rfl, rfl⟩, by decide⟩,
   ⟨fr 5 [], { serving with waiting := [.set { write1 with orphaned := true } spec1] }, ⟨rfl, rfl, rfl⟩, by decide⟩,
   ⟨fr 5 [64], serving, ⟨rfl, rfl, rfl⟩, by decide⟩,
   ⟨write1, spec1, [], 3, route1, { routed route1 with waiting := [.set write1 spec1] }, by decide, by decide,
     setting_law write1, by decide⟩,
   ⟨{ write1 with requester := .frame 4 }, spec1, [], 3, route1,
     { routed route1 with waiting := [.set { write1 with requester := .frame 4 } spec1] }, by decide, by decide,
     setting_law { write1 with requester := .frame 4 }, by decide⟩,
   ⟨write1, spec1, [], 63, { serving with waiting := [.set write1 spec1] }, by decide⟩,
   ⟨{ write1 with modify := 0 }, spec1, [], { serving with waiting := [.set { write1 with modify := 0 } spec1] },
     by decide⟩,
   ⟨write1, 63, [], { serving with waiting := [.clear write1 63] }, by decide⟩,
   ⟨write1, 3, [], { routed route1 with waiting := [.clear write1 3] }, by decide⟩,
   ⟨{ write1 with requester := .frame 4 }, 3, [],
     { routed route1 with waiting := [.clear { write1 with requester := .frame 4 } 3] }, by decide⟩,
   ⟨write1, spec1, 3, route1, { routed route1 with writing := some (.replace write1 spec1 3) }, by decide⟩,
   ⟨write1, spec1, 63, { serving with writing := some (.create write1 spec1 63) }, by decide⟩,
   ⟨write1, 3, route1, { routed route1 with writing := some (.clear write1 3) }, by decide⟩⟩

theorem met_RouteWalksVisitReadableEntries :
    (∃ (q : Request) (c : Instr) (kind : Byte) (cursor : Nat) (i : RouteIx) (r : Route) (s : State),
      ((c = .routeFirst q ∧ kind = kindRouteFirst ∧ cursor = 0) ∨ (c = .routeNext q ∧ kind = kindRouteNext
      ∧ cursor = (s.client q.requester).cursor)) ∧ Taken q kind false s ∧ s.ready = true ∧ cursor ≤ i.val
      ∧ s.route i = some r ∧ mayReadRoute s q.requester i = true
      ∧ (∀ j : RouteIx, cursor ≤ j.val → j < i → s.route j ≠ none → mayReadRoute s q.requester j = false))
    ∧ (∃ (q : Request) (c : Instr) (kind : Byte) (cursor : Nat) (i : RouteIx) (r : Route) (s : State),
      ((c = .routeFirst q ∧ kind = kindRouteFirst ∧ cursor = 0) ∨ (c = .routeNext q ∧ kind = kindRouteNext
      ∧ cursor = (s.client q.requester).cursor)) ∧ Taken q kind false s ∧ s.ready = true ∧ cursor ≤ i.val
      ∧ s.route i = some r ∧ mayReadRoute s q.requester i = true
      ∧ (∀ j : RouteIx, cursor ≤ j.val → j < i → s.route j ≠ none → mayReadRoute s q.requester j = false))
    ∧ (∃ (q : Request) (c : Instr) (kind : Byte) (s : State),
      ((c = .routeRead q ∧ kind = kindRouteRead) ∨ (c = .routeFirst q ∧ kind = kindRouteFirst) ∨ (c = .routeNext q
      ∧ kind = kindRouteNext)) ∧ Taken q kind false s ∧ s.ready = false)
    ∧ (∃ (q : Request) (c : Instr) (kind : Byte) (cursor : Nat) (s : State),
      ((c = .routeFirst q ∧ kind = kindRouteFirst ∧ cursor = 0) ∨ (c = .routeNext q ∧ kind = kindRouteNext
      ∧ cursor = (s.client q.requester).cursor)) ∧ Taken q kind false s ∧ s.ready = true
      ∧ (∀ j : RouteIx, cursor ≤ j.val → s.route j ≠ none → mayReadRoute s q.requester j = false)) :=
  ⟨⟨fr 5 [], .routeFirst (fr 5 []), kindRouteFirst, 0, 3, route1, routed route1, Or.inl ⟨rfl, rfl, rfl⟩,
    ⟨rfl, rfl, rfl⟩, by decide⟩,
   ⟨fr 5 [], .routeNext (fr 5 []), kindRouteNext, 3, 3, route1,
     (routed route1).modClient (.frame 5) fun c => { c with cursor := 3 }, Or.inr ⟨rfl, rfl, by decide⟩,
     ⟨rfl, rfl, rfl⟩, by decide⟩,
   ⟨fr 5 [], .routeRead (fr 5 []), kindRouteRead, { serving with ready := false }, Or.inl ⟨rfl, rfl⟩,
     ⟨rfl, rfl, rfl⟩, by decide⟩,
   ⟨fr 5 [], .routeNext (fr 5 []), kindRouteNext, 4,
     (routed route1).modClient (.frame 5) fun c => { c with cursor := 4 }, Or.inr ⟨rfl, rfl, by decide⟩,
     ⟨rfl, rfl, rfl⟩, by decide⟩⟩

theorem met_RcpTransactionsAndAccess :
    (∃ (part : ReadPart) (status : Byte) (count : Nat) (r : Response) (s : State), readEnds part status count s
      ∧ s.rcp.buffer = some r ∧ count ≤ 1 + r.bytes.length)
    ∧ (∃ (part : ReadPart) (status : Byte) (count : Nat) (r : Response) (s : State), readEnds part status count s
      ∧ s.rcp.buffer = some r ∧ count ≤ 1 + r.bytes.length)
    ∧ (∃ (part : ReadPart) (status : Byte) (count : Nat) (r : Response) (s : State), readEnds part status count s
      ∧ s.rcp.buffer = some r ∧ 1 + r.bytes.length < count)
    ∧ (∃ (part : ReadPart) (status : Byte) (count : Nat) (s : State), readEnds part status count s
      ∧ s.rcp.buffer = none)
    ∧ (∃ (s : State), s.rcp.framing = .awaitingFall)
    ∧ (∃ (status : Byte) (s : State), s.rcp.framing = .reading status)
    ∧ (∃ (status : Byte) (r : Response) (s : State), s.rcp.framing = .reading status ∧ s.rcp.held = some r)
    ∧ (∃ (q : Request) (i : Fin 8) (e : AccessEntry) (s : State), Taken q kindAccessSet false s
      ∧ indexArg 8 q.args = some i ∧ accessArgs (q.args.drop 1) = some e)
    ∧ (∃ (q : Request) (i : Fin 8) (s : State), Taken q kindAccessSet false s ∧ indexArg 8 q.args = some i)
    ∧ (∃ (q : Request) (i space first last read modify : Byte) (rest : List Byte) (s : State),
      Taken q kindAccessSet false s ∧ q.args = i :: 0 :: space :: first :: last :: read :: modify :: rest
      ∧ last.toNat < first.toNat)
    ∧ (∃ (q : Request) (i space first last read modify : Byte) (rest : List Byte) (s : State),
      Taken q kindAccessSet false s ∧ q.args = i :: 0 :: space :: first :: last :: read :: modify :: rest
      ∧ space = Space.all.code ∧ first.toNat ≤ last.toNat)
    ∧ (∃ (q : Request) (i space first last read modify : Byte) (rest : List Byte) (s : State),
      Taken q kindAccessSet false s ∧ q.args = i :: 0 :: space :: first :: last :: read :: modify :: rest
      ∧ space = Space.lines.code ∧ spaceMax .lines < last.toNat)
    ∧ (∃ (q : Request) (i space first last read modify : Byte) (rest : List Byte) (s : State),
      Taken q kindAccessSet false s ∧ q.args = i :: 0 :: space :: first :: last :: read :: modify :: rest
      ∧ space = Space.lines.code ∧ last.toNat ≤ spaceMax .lines)
    ∧ (∃ (q : Request) (s : State), Taken q kindAccessSet false s) :=
  ⟨⟨.whole 7, spiStatus answeredState, 7, response1, answeredState, Or.inl ⟨rfl, rfl, rfl, rfl⟩, by decide⟩,
   ⟨.ends 6, 2, 6, response1, midRead none, Or.inr ⟨rfl, rfl, rfl⟩, by decide⟩,
   ⟨.whole 8, spiStatus answeredState, 8, response1, answeredState, Or.inl ⟨rfl, rfl, rfl, rfl⟩, by decide⟩,
   ⟨.whole 0, spiStatus serving, 0, serving, Or.inl ⟨rfl, rfl, rfl, rfl⟩, by decide⟩,
   ⟨serving, by decide⟩,
   ⟨2, midRead none, by decide⟩,
   ⟨2, response1, midRead (some response1), by decide⟩,
   ⟨rcp [7, 0, 7, 0, 6, 63, 0], 7, access1, serving, ⟨rfl, rfl, rfl⟩, by decide⟩,
   ⟨rcp [7, 1], 7, serving, ⟨rfl, rfl, rfl⟩, by decide⟩,
   ⟨rcp [7, 0, 8, 5, 4, 63, 63], 7, 8, 5, 4, 63, 63, [], serving, ⟨rfl, rfl, rfl⟩, by decide⟩,
   ⟨rcp [7, 0, 8, 0, 255, 63, 63], 7, 8, 0, 255, 63, 63, [], serving, ⟨rfl, rfl, rfl⟩, by decide⟩,
   ⟨rcp [7, 0, 6, 0, 7, 63, 63], 7, 6, 0, 7, 63, 63, [], serving, ⟨rfl, rfl, rfl⟩, by decide⟩,
   ⟨rcp [7, 0, 6, 0, 6, 63, 63], 7, 6, 0, 6, 63, 63, [], serving, ⟨rfl, rfl, rfl⟩, by decide⟩,
   ⟨rcp [8, 1], serving, ⟨rfl, rfl, rfl⟩⟩⟩

theorem met_CounterReadsAndClears :
    (∃ (q : Request) (i : Fin 7) (clear : Bool) (s : State), Taken q kindCounterRead false s
      ∧ counterArgs q.args = some (i, clear) ∧ mayRead s q.requester .counters i.val = true)
    ∧ (∃ (q : Request) (i : Fin 7) (n : Link) (clear : Bool) (s : State), Taken q kindCounterRead true s
      ∧ counterArgs q.args = some (i, clear) ∧ i.val = n.val ∧ mayModify s q.requester .counters i.val = true)
    ∧ (∃ (q : Request) (i : Fin 7) (clear : Bool) (s : State), Taken q kindCounterRead true s
      ∧ counterArgs q.args = some (i, clear) ∧ i.val = 6 ∧ mayModify s q.requester .counters i.val = true)
    ∧ (∃ (q : Request) (i : Fin 7) (clear : Bool) (s : State), Taken q kindCounterRead true s
      ∧ counterArgs q.args = some (i, clear) ∧ mayModify s q.requester .counters i.val = false
      ∧ mayRead s q.requester .counters i.val = true)
    ∧ (∃ (q : Request), counterArgs q.args = none ∧ Taken (fr 5 [7, 0]) kindCounterRead false serving
      ∧ Taken (fr 5 [7, 0]) kindCounterRead true serving)
    ∧ (∃ (q : Request) (i : Fin 7) (clear : Bool) (s : State), counterArgs q.args = some (i, clear)
      ∧ mayRead s q.requester .counters i.val = false ∧ Taken (fr 5 [6, 1]) kindCounterRead false locked
      ∧ Taken (fr 5 [6, 1]) kindCounterRead true locked) :=
  ⟨⟨fr 5 [6, 0], 6, false, serving, ⟨rfl, rfl, rfl⟩, by decide⟩,
   ⟨fr 5 [5, 1], 5, 5, true, serving, ⟨rfl, rfl, rfl⟩, by decide⟩,
   ⟨fr 5 [6, 1], 6, true, serving, ⟨rfl, rfl, rfl⟩, by decide⟩,
   ⟨fr 5 [6, 1], 6, true, readOnly, ⟨rfl, rfl, rfl⟩, by decide⟩,
   ⟨fr 5 [7, 0], by decide, ⟨rfl, rfl, rfl⟩, ⟨rfl, rfl, rfl⟩⟩,
   ⟨fr 5 [6, 1], 6, true, locked, by decide, by decide, ⟨rfl, rfl, rfl⟩, ⟨rfl, rfl, rfl⟩⟩⟩

theorem met_NoticeReadAndMask :
    (∃ (q : Request) (s : State), Taken q kindNoticeRead false s ∧ q.requester = .rcp)
    ∧ (∃ (q : Request) (n : Link) (s : State), Taken q kindNoticeRead false s ∧ q.requester = .frame n)
    ∧ (∃ (q : Request) (m : Byte) (rest : List Byte) (s : State), Taken q kindNoticeMask false s ∧ q.args = m :: rest
      ∧ m.getLsbD 7 = false ∧ q.requester = .rcp)
    ∧ (∃ (q : Request) (m : Byte) (rest : List Byte) (n : Link) (s : State), Taken q kindNoticeMask false s
      ∧ q.args = m :: rest ∧ m.getLsbD 7 = false ∧ q.requester = .frame n
      ∧ (s.client (.frame n)).news &&& m.setWidth 7 ≠ 0 ∧ s.outstanding[n] = false ∧ (s.port n).tx = none
      ∧ takeWaiting (s.port n) = none)
    ∧ (∃ (q : Request) (m : Byte) (rest : List Byte) (n : Link) (s : State), Taken q kindNoticeMask false s
      ∧ q.args = m :: rest ∧ m.getLsbD 7 = false ∧ q.requester = .frame n
      ∧ ((s.client (.frame n)).news &&& m.setWidth 7 = 0 ∨ s.outstanding[n] = true))
    ∧ (∃ (q : Request) (m : Byte) (rest : List Byte) (n : Link) (s : State), Taken q kindNoticeMask false s
      ∧ q.args = m :: rest ∧ m.getLsbD 7 = false ∧ q.requester = .frame n
      ∧ ((s.client (.frame n)).news &&& m.setWidth 7 = 0 ∨ s.outstanding[n] = true))
    ∧ (∃ (q : Request) (m : Byte) (rest : List Byte) (s : State), Taken q kindNoticeMask false s ∧ q.args = m :: rest
      ∧ m.getLsbD 7 = true)
    ∧ (∃ (k : Notice) (n : Link) (s : State), s.outstanding[n] = false ∧ (s.client (.frame n)).mask &&& k.bit ≠ 0
      ∧ inService (s.port n).state = true)
    ∧ (∃ (k : Notice) (n : Link) (s : State),
      (s.outstanding[n] = true ∨ (s.client (.frame n)).mask &&& k.bit = 0 ∨ inService (s.port n).state = false)) :=
  ⟨⟨rcp [], serving.modClient .rcp fun c => { c with news := 4 }, ⟨rfl, rfl, rfl⟩, by decide⟩,
   ⟨fr 5 [], 5, serving, ⟨rfl, rfl, rfl⟩, by decide⟩,
   ⟨rcp [0x7F], 0x7F, [], serving, ⟨rfl, rfl, rfl⟩, by decide⟩,
   ⟨fr 5 [0x04], 0x04, [], 5, serving.modClient (.frame 5) fun c => { c with news := 4, mask := 0 }, ⟨rfl, rfl, rfl⟩,
     by decide⟩,
   ⟨fr 5 [0x7B], 0x7B, [], 5, serving.modClient (.frame 5) fun c => { c with news := 4, mask := 0 }, ⟨rfl, rfl, rfl⟩,
     by decide⟩,
   ⟨fr 5 [0x7F], 0x7F, [], 5,
     { (serving.modClient (.frame 5) fun c => { c with news := 4, mask := 0 }) with outstanding := Vector.replicate 6 true },
     ⟨rfl, rfl, rfl⟩, by decide⟩,
   ⟨fr 5 [0x80], 0x80, [], serving, ⟨rfl, rfl, rfl⟩, by decide⟩,
   ⟨.route, 5, serving, by decide⟩,
   ⟨.route, 5, quiesced, by decide⟩⟩

end Sys2Proof.Tests
end

section
/-! SUPPORT. What offers and notices leave alone: kinds that are pending, and ports out of service (R12, R175, R176). -/

namespace Sys2Proof.Machine

-- One declaration after another: the checks of the proofs by decide would otherwise wait for each other in many threads.
set_option Elab.async false

/-! ### Parts told by a frame -/

/-- What touches no service, roster entry, margin unit, line or queue leaves every other link as `Elsewhere` says. -/
theorem Within.elsewhere {gs : List Part} {s t : State} (h : Within gs s t) (n : Link)
    (sub : ∀ x ∈ gs, x ∉ [Part.service, .roster, .margins, .lines, .egress] := by decide) : Elsewhere n s t := by
  have out : ∀ x ∈ [Part.service, .roster, .margins, .lines, .egress], x.same s t := fun x hx => h x fun g => sub x g hx
  have roster : t.roster = s.roster := out .roster (by decide)
  have margins : t.margins = s.margins := out .margins (by decide)
  have lines : t.lines = s.lines := out .lines (by decide)
  have egress : t.egress = s.egress := out .egress (by decide)
  intro m _
  exact ⟨out .service (by decide) m, by rw [State.entry, roster, State.entry],
    by rw [State.margin, margins, State.margin], by rw [State.line, lines, State.line],
    by rw [State.queues, egress, State.queues]⟩

theorem Elsewhere.trans {n : Link} {s t u : State} (h : Elsewhere n s t) (g : Elsewhere n t u) : Elsewhere n s u := by
  intro m hm
  obtain ⟨service, entry, margin, line, queues⟩ := h m hm
  obtain ⟨service', entry', margin', line', queues'⟩ := g m hm
  exact ⟨service'.trans service, entry'.trans entry, margin'.trans margin, line'.trans line, queues'.trans queues⟩

/-- The in-progress flags stand where the standing part of every client does. -/
theorem Within.busy {gs : List Part} {s t : State} (h : Within gs s t) (rq : Requester)
    (out : Part.flags ∉ gs := by decide) : t.busy rq = s.busy rq := by
  have standing := congrArg Client.busy (h .flags out rq)
  exact standing

/-! ### Offers and notices -/

/-- Nothing but offers and notices: a kind that is pending stays pending, and a port out of service takes no cell and
stays as it is. -/
structure Calm (s t : State) : Prop where
  news : ∀ rq k, (s.client rq).news &&& k = k → (t.client rq).news &&& k = k
  idle : ∀ m, inService (s.port m).state = false → t.port m = s.port m

theorem Calm.refl (s : State) : Calm s s := ⟨fun _ _ h => h, fun _ _ => rfl⟩

theorem Calm.trans {s t u : State} (h : Calm s t) (g : Calm t u) : Calm s u where
  news rq k hk := g.news rq k (h.news rq k hk)
  idle m hm := by
    have st := h.idle m hm
    rw [g.idle m (by rw [st]; exact hm), st]

/-- What touches neither ports nor clients. -/
theorem Within.calm {gs : List Part} {s t : State} (h : Within gs s t)
    (sub : ∀ x ∈ gs, x ∉ [Part.ports, .clients] := by decide) : Calm s t := by
  have ports : t.ports = s.ports := h .ports fun g => sub _ g (by decide)
  have clients : t.clients = s.clients := h .clients fun g => sub _ g (by decide)
  exact ⟨fun rq k hk => by rwa [State.client, clients], fun m _ => by rw [State.port, ports, State.port]⟩

theorem Calm.ite {s t : State} {c : Prop} [Decidable c] (h : Calm s t) : Calm s (if c then t else s) := by
  split
  · exact h
  · exact Calm.refl s

theorem Calm.foldl {α : Type} {f : State → α → State} (h : ∀ s a, Calm s (f s a)) :
    ∀ (l : List α) (s : State), Calm s (l.foldl f s)
  | [], s => Calm.refl s
  | a :: l, s => (h s a).trans (Calm.foldl h l (f s a))

/-- The arbiter of a port out of service takes no cell (R12). -/
theorem offerToPort_idle (c : TxCell) (p : LinkPort) (h : inService p.state = false) : offerToPort c p = p := by
  have refused : arbiterTakes p.state c = false := by
    cases hp : p.state <;> simp_all [inService, arbiterTakes]
  simp [offerToPort, refused]

theorem offerCell_calm (n : Link) (c : TxCell) (s : State) : Calm s (offerCell n c s) where
  news _ _ h := h
  idle m hm := by
    rw [offerCell, modPort_port]
    split
    · next e => subst e; exact offerToPort_idle c _ hm
    · rfl

theorem offerNotice_calm (n : Link) (s : State) : Calm s (offerNotice n s) :=
  Calm.ite ((offerCell_calm n _ s).trans (setOutstanding_within n true _).calm)

theorem tell_calm (rq : Requester) (kinds : NoticeSet) (s : State) : Calm s (tell rq kinds s) := by
  cases rq with
  | rcp => exact Calm.refl s
  | frame n => exact Calm.ite (offerNotice_calm n s)

/-- A change of a client that loses no pending kind. -/
theorem modClient_calm (rq : Requester) (f : Client → Client)
    (h : ∀ c k, c.news &&& k = k → (f c).news &&& k = k) (s : State) : Calm s (s.modClient rq f) where
  news rq' k hk := by
    rw [modClient_client]
    split
    · next e => subst e; exact h _ k hk
    · exact hk
  idle _ _ := rfl

/-- Kinds that are pending stay pending when others are set. -/
theorem or_and_of_and {w : Nat} {a k : BitVec w} (b : BitVec w) (h : a &&& k = k) : (a ||| b) &&& k = k := by
  ext i hi
  have := congrArg (·[i]) h
  simp at this ⊢
  tauto

theorem notify_calm (k : Notice) (s : State) (rq : Requester) : Calm s (notify k s rq) :=
  (modClient_calm rq _ (fun _ _ h => or_and_of_and _ h) s).trans (tell_calm rq k.bit _)

theorem notifyAll_calm (k : Notice) (s : State) : Calm s (notifyAll k s) := Calm.foldl (notify_calm k) _ s

/-- The kind is pending for the requester that was notified (R175). -/
theorem notify_pending (k : Notice) (s : State) (rq : Requester) :
    ((notify k s rq).client rq).news &&& k.bit = k.bit := by
  refine (tell_calm rq k.bit _).news rq k.bit ?_
  rw [modClient_client, if_pos rfl]
  ext i hi
  simp
  tauto

theorem notify_foldl_pending (k : Notice) (rq : Requester) (l : List Requester) (h : rq ∈ l) (s : State) :
    ((l.foldl (notify k) s).client rq).news &&& k.bit = k.bit := by
  induction l generalizing s with
  | nil => exact absurd h List.not_mem_nil
  | cons a l ih =>
    rw [List.foldl_cons]
    rcases List.mem_cons.mp h with rfl | h
    · exact (Calm.foldl (notify_calm k) l _).news rq k.bit (notify_pending k s rq)
    · exact ih h _

theorem mem_allRequesters (rq : Requester) : rq ∈ allRequesters := by
  cases rq with
  | rcp => decide
  | frame n => revert n; decide

theorem notifyAll_toldAll (k : Notice) (s : State) : ToldAll k (notifyAll k s) := fun rq =>
  notify_foldl_pending k rq allRequesters (mem_allRequesters rq) s

theorem Calm.toldAll {k : Notice} {s t : State} (h : Calm s t) (g : ToldAll k s) : ToldAll k t := fun rq =>
  h.news rq k.bit (g rq)

end Sys2Proof.Machine
end

section
/-! SUPPORT. What a change of one link leaves alone, and what the link-level reset and the idling of a port come to (R1, R2,
R14). -/

namespace Sys2Proof.Machine

-- One declaration after another: the checks of the proofs by decide would otherwise wait for each other in many threads.
set_option Elab.async false

/-! ### The other blocks' parts of a link-level reset and of a departure -/

theorem Calm.thenIf {s t : State} {c : Prop} [Decidable c] (f : State → State) (h : Calm s t)
    (g : ∀ u, Calm u (f u)) : Calm s (if c then f t else t) := h.trans (Calm.ite (g t))

theorem releaseHolds_calm (p : HoldEntry → Bool) (s : State) : Calm s (releaseHolds p s) :=
  (holds_within _ s).calm.trans (Calm.foldl (fun s _ => Calm.ite (offerCell_calm _ _ s)) _ _)

theorem resetHolds_calm (n : Link) (s : State) : Calm s (resetHolds n s) :=
  (holds_within _ s).calm.trans (releaseHolds_calm _ _)

theorem tbNotify_calm (f : Timebase → Timebase) (s : State) : Calm s (notifyAll .time (s.modTb f)) :=
  (modTb_within f s).calm.trans (notifyAll_calm .time _)

theorem missSource_calm (s : State) : Calm s (missSource s) :=
  Calm.thenIf enterHoldover (modTb_within _ s).calm fun u => tbNotify_calm _ u

theorem countMissing_calm (n : Link) (s : State) : Calm s (countMissing n s) := by
  unfold countMissing
  refine Calm.ite ?_
  cases syncRole s n with
  | source => exact missSource_calm s
  | follower => exact (modSync_within n _ s).calm
  | notEligible => exact Calm.refl s

theorem closeMissing_calm (n : Link) (s : State) : Calm s (closeMissing n s) := by
  unfold closeMissing
  split
  · exact (modSync_within n _ s).calm.trans (countMissing_calm n _)
  · exact Calm.refl s

theorem resetSync_calm (n : Link) (s : State) : Calm s (resetSync n s) :=
  (closeMissing_calm n s).trans (modSync_within n _ _).calm

theorem switchSource_calm (n : Link) (s : State) : Calm s (switchSource n s) :=
  ((modTb_within _ s).calm.trans (modSync_within n followerReset _).calm).trans (notifyAll_calm .time _)

theorem compareSource_calm (s : State) : Calm s (compareSource s) := by
  unfold compareSource
  split
  · split
    · exact Calm.refl s
    · exact switchSource_calm _ s
  · split
    · exact tbNotify_calm _ s
    · exact Calm.refl s
    · exact Calm.refl s

theorem trigs_within (v : Vector TrigEntry 16) (s : State) : Within [.trigs] s { s with trigs := v } := by
  intro x hx; cases x <;> first | rfl | exact absurd (by decide) hx | exact fun _ => rfl

theorem cancelTriggers_calm (n : Link) (s : State) : Calm s (cancelTriggers n s) :=
  Calm.thenIf (fun u => notify .trigger u .rcp) (trigs_within _ s).calm fun u => notify_calm .trigger u .rcp

/-! ### What is confined to one link -/

/-- A change of link `n`: no pending kind is lost, the other links are as they were but for waiting cells, and so are the
in-progress flags of the other requesters; no request of Fn has come to be in progress. -/
structure Confined (n : Link) (s t : State) : Prop where
  news : ∀ rq k, (s.client rq).news &&& k = k → (t.client rq).news &&& k = k
  elsewhere : Elsewhere n s t
  busy : ∀ rq, rq ≠ .frame n → t.busy rq = s.busy rq
  free : s.busy (.frame n) = false → t.busy (.frame n) = false

/-- The state and the enable setting of a port, with what it keeps of R2's conditions for training. -/
def LinkPort.setting (p : LinkPort) : LinkState × Bool × Nat × Bool := (p.state, p.enabled, p.failCount, p.activity)

/-- The setting is a part of the service. -/
theorem LinkPort.setting_of_service {p p' : LinkPort} (h : p'.service = p.service) : p'.setting = p.setting := by
  have setting := congrArg LinkPort.setting h
  exact setting

/-- A change of link `n` that leaves the setting of its port, and once the link is emptied out of service leaves it so. -/
structure Settled (n : Link) (s t : State) : Prop extends Confined n s t where
  setting : (t.port n).setting = (s.port n).setting
  emptied : inService (s.port n).state = false → Emptied n s → Emptied n t

theorem Confined.trans {n : Link} {s t u : State} (h : Confined n s t) (g : Confined n t u) : Confined n s u where
  news rq k hk := g.news rq k (h.news rq k hk)
  elsewhere := h.elsewhere.trans g.elsewhere
  busy rq hrq := (g.busy rq hrq).trans (h.busy rq hrq)
  free h' := g.free (h.free h')

theorem Settled.state {n : Link} {s t : State} (h : Settled n s t) : (t.port n).state = (s.port n).state :=
  congrArg (·.1) h.setting

theorem Settled.refl (n : Link) (s : State) : Settled n s s where
  news _ _ h := h
  elsewhere _ _ := ⟨rfl, rfl, rfl, rfl, rfl⟩
  busy _ _ := rfl
  free h := h
  setting := rfl
  emptied _ h := h

theorem Settled.trans {n : Link} {s t u : State} (h : Settled n s t) (g : Settled n t u) : Settled n s u where
  toConfined := h.toConfined.trans g.toConfined
  setting := g.setting.trans h.setting
  emptied out e := g.emptied (by rw [h.state]; exact out) (h.emptied out e)

theorem Settled.ite {n : Link} {s t : State} {c : Prop} [Decidable c] (h : Settled n s t) :
    Settled n s (if c then t else s) := by
  split
  · exact h
  · exact Settled.refl n s

theorem Settled.thenIf {n : Link} {s t : State} {c : Prop} [Decidable c] (f : State → State) (h : Settled n s t)
    (g : ∀ u, Settled n u (f u)) : Settled n s (if c then f t else t) := h.trans (Settled.ite (g t))

/-- Emptiness is read off the queues and the port of the link. -/
theorem Emptied.congr {n : Link} {s t : State} (e : Emptied n s) (queues : t.queues n = s.queues n)
    (port : t.port n = s.port n) : Emptied n t := by
  unfold Emptied at *
  rwa [queues, port]

/-- Offers and notices that touch no service, no flag and no queue settle a link whose neighbours stay as they are. -/
theorem Settled.of_calm {gs : List Part} {n : Link} {s t : State} (c : Calm s t) (w : Within gs s t)
    (elsewhere : Elsewhere n s t)
    (sub : ∀ x ∈ gs, x ∉ [Part.service, .flags, .egress] := by decide) : Settled n s t := by
  have flags : Part.flags ∉ gs := fun g => sub _ g (by decide)
  have service : (t.port n).service = (s.port n).service := w .service (fun g => sub _ g (by decide)) n
  have egress : t.egress = s.egress := w .egress fun g => sub _ g (by decide)
  have queues : t.queues n = s.queues n := by rw [State.queues, egress, State.queues]
  exact
    { news := c.news
      elsewhere := elsewhere
      busy := fun rq _ => w.busy rq flags
      free := fun h => (w.busy _ flags).trans h
      setting := LinkPort.setting_of_service service
      emptied := fun out e => e.congr queues (c.idle n out) }

/-- Offers and notices that touch nothing kept per link but waiting cells and sync states settle every link. -/
theorem Calm.settled {gs : List Part} {n : Link} {s t : State} (c : Calm s t) (w : Within gs s t)
    (sub : ∀ x ∈ gs, x ∉ [Part.service, .roster, .margins, .lines, .egress] := by decide)
    (flags : ∀ x ∈ gs, x ∉ [Part.service, .flags, .egress] := by decide) : Settled n s t :=
  .of_calm c w (w.elsewhere n sub) flags

theorem modMargin_settled (n : Link) (f : MarginUnit → MarginUnit) (s : State) : Settled n s (s.modMargin n f) :=
  .of_calm (modMargin_within n f s).calm (modMargin_within n f s)
    fun m hm => ⟨rfl, rfl, by rw [modMargin_margin, if_neg hm], rfl, rfl⟩

theorem modEntry_settled (n : Link) (f : RosterEntry → RosterEntry) (s : State) : Settled n s (s.modEntry n f) :=
  .of_calm (modEntry_within n f s).calm (modEntry_within n f s)
    fun m hm => ⟨rfl, by rw [modEntry_entry, if_neg hm], rfl, rfl, rfl⟩

theorem modLine_settled (n : Link) (f : LinkLines → LinkLines) (s : State) : Settled n s (s.modLine n f) :=
  .of_calm (modLine_within n f s).calm (modLine_within n f s)
    fun m hm => ⟨rfl, rfl, rfl, by rw [modLine_line, if_neg hm], rfl⟩

theorem notifyAll_settled (n : Link) (k : Notice) (s : State) : Settled n s (notifyAll k s) :=
  (notifyAll_calm k s).settled (notifyAll_within k s)

theorem refreshSchedule_settled (n m : Link) (s : State) : Settled n s (refreshSchedule m s) :=
  (refreshSchedule_within m s).calm.settled (refreshSchedule_within m s)

theorem abortProbe_settled (n : Link) (o : ProbeOutcome) (s : State) : Settled n s (abortProbe n o s) := by
  unfold abortProbe
  split
  · split
    · exact (modMargin_settled n _ s).trans ((notify_calm .margin _ _).settled (notify_within .margin _ _))
    · exact modMargin_settled n _ s
  · exact Settled.refl n s

theorem probeFollowsRoster_settled (n : Link) (s : State) : Settled n s (probeFollowsRoster n s) := by
  unfold probeFollowsRoster
  split
  · split
    · exact Settled.refl n s
    · exact abortProbe_settled n _ s
  · exact Settled.refl n s

/-! ### The link-level reset (R14) -/

theorem flushLink_elsewhere (n : Link) (s : State) : Elsewhere n s (flushLink n s) := by
  have flushed : Elsewhere n s (((s.queues n).expedite ++ (s.queues n).normal).foldl (flushRef n) s) :=
    (Within.foldl (flushRef_within n) _ s).elsewhere n
  have cleared : ∀ u : State, Elsewhere n u (u.modQueues n fun q => { q with expedite := [], normal := [] }) :=
    fun u m hm => ⟨rfl, rfl, rfl, rfl, by rw [modQueues_queues, if_neg hm]⟩
  exact (flushed.trans (cleared _)).trans ((abandonBlock_within n _).elsewhere n)

theorem resetPort_elsewhere (n : Link) (s : State) : Elsewhere n s (resetPort n s) := by
  have run : ∀ u : State, Elsewhere n u (u.modQueues n fun q => { q with run := 0 }) :=
    fun u m hm => ⟨rfl, rfl, rfl, rfl, by rw [modQueues_queues, if_neg hm]⟩
  have port : ∀ u : State, Elsewhere n u (u.modPort n clearPort) :=
    fun u m hm => ⟨by rw [modPort_port, if_neg hm], rfl, rfl, rfl, rfl⟩
  exact (((flushLink_elsewhere n s).trans (run _)).trans (port _)).trans ((countBy_within n .trigMissed _ _).elsewhere n)

/-- The port of the link after the Link Port row: the flush touches its transmission alone. -/
theorem resetPort_port (n : Link) (s : State) : (resetPort n s).port n = clearPort ((flushLink n s).port n) := by
  simp [resetPort]

theorem abandonBlock_queues (n m : Link) (s : State) : (abandonBlock n s).queues m = s.queues m := by
  have egress : (abandonBlock n s).egress = s.egress := abandonBlock_within n s .egress (by decide)
  rw [State.queues, egress, State.queues]

theorem flushLink_setting (n : Link) (s : State) : ((flushLink n s).port n).setting = (s.port n).setting :=
  LinkPort.setting_of_service (flushLink_within n s .service (by decide) n)

theorem clearPort_setting (p : LinkPort) : (clearPort p).setting = p.setting := by
  unfold clearPort
  dsimp only
  split <;> rfl

theorem resetPort_setting (n : Link) (s : State) : ((resetPort n s).port n).setting = (s.port n).setting := by
  rw [resetPort_port, clearPort_setting, flushLink_setting]

theorem resetPort_queues (n : Link) (s : State) :
    (resetPort n s).queues n = { expedite := [], normal := [], run := 0 } := by
  simp [resetPort, flushLink, abandonBlock_queues]

/-- The Link Port and egress queue rows leave nothing on a link that is out of service. -/
theorem resetPort_emptied (n : Link) (s : State) (h : inService (s.port n).state = false) :
    Emptied n (resetPort n s) := by
  have state : ((flushLink n s).port n).state = (s.port n).state := congrArg (·.1) (flushLink_setting n s)
  unfold Emptied
  rw [resetPort_queues, resetPort_port]
  simp [clearPort, state, h]

theorem resetPort_settled (n : Link) (s : State) : Settled n s (resetPort n s) where
  news rq k hk := by
    have clients : (resetPort n s).clients = s.clients := resetPort_within n s .clients (by decide)
    rwa [State.client, clients]
  elsewhere := resetPort_elsewhere n s
  busy rq _ := (resetPort_within n s).busy rq
  free h := ((resetPort_within n s).busy _).trans h
  setting := resetPort_setting n s
  emptied out _ := resetPort_emptied n s out

theorem mapWrites_settled (n : Link) (f : WriteRequest → WriteRequest) (s : State) : Settled n s (mapWrites f s) :=
  (mapWrites_within f s).calm.settled (mapWrites_within f s)

theorem resetRequests_settled (n : Link) (s : State) : Settled n s (resetRequests n s) := by
  have flag : ∀ u : State, Settled n u (u.modClient (.frame n) fun c => { c with busy := false }) := fun u =>
    { Settled.refl n u with
      news := (modClient_calm _ (fun c => { c with busy := false }) (fun _ _ h => h) u).news
      busy := fun rq h => by rw [State.busy, modClient_client, if_neg h, State.busy]
      free := fun _ => by rw [State.busy, modClient_client, if_pos rfl] }
  exact ((mapWrites_settled n _ s).trans (flag _)).trans
    ((setOutstanding_within n false _).calm.settled (setOutstanding_within n false _))

theorem resetMargin_settled (n : Link) (s : State) : Settled n s (resetMargin n s) :=
  (abortProbe_settled n _ s).trans (modMargin_settled n _ _)

/-- The rows of the link-level reset after the Link Port and egress queue rows. -/
theorem linkReset_rest_settled (n : Link) (s : State) :
    Settled n s (resetRequests n (resetMargin n (resetSync n (resetHolds n s)))) :=
  ((((resetHolds_calm n s).settled (resetHolds_within n s)).trans
    ((resetSync_calm n _).settled (resetSync_within n _))).trans (resetMargin_settled n _)).trans
    (resetRequests_settled n _)

theorem linkReset_settled (n : Link) (s : State) : Settled n s (linkReset n s) :=
  (resetPort_settled n s).trans (linkReset_rest_settled n _)

/-- The link-level reset leaves nothing on a link that is out of service (R14). -/
theorem linkReset_emptied (n : Link) (s : State) (h : inService (s.port n).state = false) :
    Emptied n (linkReset n s) :=
  (linkReset_rest_settled n _).emptied (by rw [(resetPort_settled n s).state]; exact h) (resetPort_emptied n s h)

/-- The link-level reset ends the request of Fn (R14, R169). -/
theorem linkReset_busy (n : Link) (s : State) : (linkReset n s).busy (.frame n) = false := by
  simp [linkReset, resetRequests, State.busy]

/-! ### Transitions -/

theorem disownRoutes_settled (n : Link) (s : State) : Settled n s (disownRoutes n s) :=
  (disownRoutes_within n s).calm.settled (disownRoutes_within n s)

theorem rosterEffects_settled (n : Link) (old new : RosterState) (s : State) :
    Settled n s (rosterEffects n old new s) := by
  have probe : Settled n s (probeFollowsRoster n (refreshSchedule n s)) :=
    (refreshSchedule_settled n n s).trans (probeFollowsRoster_settled n _)
  unfold rosterEffects
  exact Settled.thenIf (endTrigPulse n)
    (Settled.thenIf (fun s => disownRoutes n (linkReset n s))
      (Settled.thenIf compareSource
        (Settled.thenIf (cancelTriggers n) probe fun u => (cancelTriggers_calm n u).settled (cancelTriggers_within n u))
        fun u => (compareSource_calm u).settled (compareSource_within u))
      fun u => (linkReset_settled n u).trans (disownRoutes_settled n _))
    fun u => modLine_settled n _ u

theorem moveEntry_settled (n : Link) (st : RosterState) (f : RosterEntry → RosterEntry) (s : State) :
    Settled n s (moveEntry n st f s) := by
  have effects := (modEntry_settled n (fun e => f (entryTo st e)) s).trans
    (rosterEffects_settled n (s.entry n).state st _)
  unfold moveEntry
  dsimp only
  split
  · exact effects
  · exact effects.trans (notifyAll_settled n .roster _)

theorem tellLinkDown_settled (n : Link) (s : State) : Settled n s (tellLinkDown n s) := by
  unfold tellLinkDown
  split <;> first | exact moveEntry_settled n _ _ s | exact Settled.refl n s

/-! ### A port that becomes idle, and one that leaves OFF (R1, R2) -/

theorem modPort_confined (n : Link) (f : LinkPort → LinkPort) (s : State) : Confined n s (s.modPort n f) where
  news _ _ h := h
  elsewhere m hm := ⟨by rw [modPort_port, if_neg hm], rfl, rfl, rfl, rfl⟩
  busy _ _ := rfl
  free h := h

theorem enterIdle_confined (n : Link) (st : LinkState) (s : State) : Confined n s (enterIdle n st s) :=
  (modPort_confined n _ s).trans (refreshSchedule_settled n n _).toConfined

theorem enterIdle_setting (n : Link) (st : LinkState) (s : State) :
    ((enterIdle n st s).port n).setting = (st, (s.port n).setting.2) := by
  refine (refreshSchedule_settled n n _).setting.trans ?_
  rw [modPort_port, if_pos rfl]
  rfl

/-- After LINK is told, the reset and the roster leave the port in the state it has passed to. -/
theorem linkReset_tellLinkDown_settled (n : Link) (s : State) : Settled n s (tellLinkDown n (linkReset n s)) :=
  (linkReset_settled n s).trans (tellLinkDown_settled n _)

theorem portIdle_confined (n : Link) (st : LinkState) (s : State) : Confined n s (portIdle n st s) :=
  (((abortProbe_settled n .abortLink s).toConfined.trans (enterIdle_confined n st _)).trans
    (notifyAll_settled n .link _).toConfined).trans (linkReset_tellLinkDown_settled n _).toConfined

theorem portIdle_setting (n : Link) (st : LinkState) (s : State) :
    ((portIdle n st s).port n).setting = (st, (s.port n).setting.2) := by
  refine ((notifyAll_settled n .link _).trans (linkReset_tellLinkDown_settled n _)).setting.trans ?_
  rw [enterIdle_setting, (abortProbe_settled n .abortLink s).setting]

/-- LINK is pending for all once a port has become idle (R2). -/
theorem portIdle_toldAll (n : Link) (st : LinkState) (s : State) : ToldAll .link (portIdle n st s) := fun rq =>
  (linkReset_tellLinkDown_settled n _).news rq _ (notifyAll_toldAll .link _ rq)

/-- Nothing is left on a link whose port has become idle (R14). -/
theorem portIdle_emptied (n : Link) (st : LinkState) (s : State) (h : inService st = false) :
    Emptied n (portIdle n st s) := by
  have out : inService ((notifyAll .link (enterIdle n st (abortProbe n .abortLink s))).port n).state = false := by
    rw [(notifyAll_settled n .link _).state, show ((enterIdle n st _).port n).state = st from
      congrArg (·.1) (enterIdle_setting n st _)]
    exact h
  exact (tellLinkDown_settled n _).emptied (by rw [(linkReset_settled n _).state]; exact out)
    (linkReset_emptied n _ out)

/-- The request of Fn is ended once its port has become idle (R14, R169). -/
theorem portIdle_busy (n : Link) (st : LinkState) (s : State) : (portIdle n st s).busy (.frame n) = false :=
  (tellLinkDown_settled n _).free (linkReset_busy n _)

theorem tryTrain_confined (n : Link) (s : State) : Confined n s (tryTrain n s) := by
  unfold tryTrain
  split
  · exact modPort_confined n _ s
  · exact (Settled.refl n s).toConfined

/-- A DOWN port trains where R2 lets it. -/
theorem tryTrain_setting (n : Link) (s : State) (h : (s.port n).state = .down) :
    ((tryTrain n s).port n).setting = (downOrTraining n (s.port n).failCount s, (s.port n).setting.2) := by
  unfold tryTrain downOrTraining
  simp only [h, retryBarred, decide_eq_true_eq, not_le, Bool.not_eq_true, true_and]
  split
  · rw [beginTraining, modPort_port, if_pos rfl]
    rfl
  · rw [← h]
    rfl

/-- What R2 looks at besides the port is left alone by every transition. -/
theorem downOrTraining_congr {n : Link} {s t : State} (w : Within moved s t)
    (activity : (t.port n).activity = (s.port n).activity) (failCount : Nat) :
    downOrTraining n failCount t = downOrTraining n failCount s := by
  have pin : (t.line n).presentPin = (s.line n).presentPin := by
    have settings := congrArg LinkLines.presentPin (w .settings (by decide) n)
    exact settings
  have reset : t.resetAsserted = s.resetAsserted := w .resetAsserted (by decide)
  rw [downOrTraining, downOrTraining, pin, reset, activity]

theorem leaveOff_confined (n : Link) (s : State) : Confined n s (leaveOff n s) := by
  unfold leaveOff
  split
  · exact ((enterIdle_confined n .down s).trans (linkReset_tellLinkDown_settled n _).toConfined).trans
      (tryTrain_confined n _)
  · exact (Settled.refl n s).toConfined

/-- An OFF port that is let out passes to DOWN, or at once to TRAINING where R2 lets it (R1). -/
theorem leaveOff_setting (n : Link) (s : State) (off : (s.port n).state = .off) (on : (s.port n).enabled = true)
    (entry : (s.entry n).state ≠ .quiesced) :
    ((leaveOff n s).port n).setting = (downOrTraining n (s.port n).failCount s, (s.port n).setting.2) := by
  have setting : ((tellLinkDown n (linkReset n (enterIdle n .down s))).port n).setting = (.down, (s.port n).setting.2) :=
    (linkReset_tellLinkDown_settled n _).setting.trans (enterIdle_setting n .down s)
  have within : Within moved s (tellLinkDown n (linkReset n (enterIdle n .down s))) :=
    Within.andThen (gs := moved) ((enterIdle_within n .down s).andThen (linkReset_within n _)) (tellLinkDown_within n _)
  simp only [LinkPort.setting, Prod.mk.injEq] at setting
  obtain ⟨state, enabled, failCount, activity⟩ := setting
  rw [leaveOff, if_pos ⟨off, on, entry⟩, tryTrain_setting n _ state, failCount, downOrTraining_congr within activity]
  simp only [LinkPort.setting, enabled, failCount, activity]

end Sys2Proof.Machine
end

section
/-! SUPPORT. What a request comes to that its block answers at once (R168 to R171). -/

namespace Sys2Proof.Machine

-- One declaration after another: the checks of the proofs by decide would otherwise wait for each other in many threads.
set_option Elab.async false

/-! ### The course of a request that is answered at once (R168 to R171) -/

theorem arrived_within (q : Request) (s : State) : Within [.ports, .service, .counters] s (arrived q s) := by
  unfold arrived
  split
  · exact Within.refl _ s
  · exact (count_within _ .cellsIn s).andThen (modPort_within _ _ _)

theorem opened_within (q : Request) (s : State) :
    Within [.ports, .service, .counters, .clients, .flags] s (opened q s) :=
  (arrived_within q s).andThen (setBusy_within q.requester true _)

theorem opened_setting (q : Request) (s : State) (n : Link) : ((opened q s).port n).setting = (s.port n).setting := by
  unfold opened arrived
  cases q.requester with
  | rcp => rfl
  | frame m =>
    rw [setBusy, modClient_port, modPort_port]
    split
    · next e => subst e; rfl
    · rfl

theorem opened_state (q : Request) (s : State) (n : Link) : ((opened q s).port n).state = (s.port n).state :=
  congrArg (·.1) (opened_setting q s n)

theorem opened_enabled (q : Request) (s : State) (n : Link) : ((opened q s).port n).enabled = (s.port n).enabled :=
  congrArg (·.2.1) (opened_setting q s n)

theorem opened_failCount (q : Request) (s : State) (n : Link) :
    ((opened q s).port n).failCount = (s.port n).failCount := congrArg (·.2.2.1) (opened_setting q s n)

theorem opened_activity (q : Request) (s : State) (n : Link) : ((opened q s).port n).activity = (s.port n).activity :=
  congrArg (·.2.2.2) (opened_setting q s n)

theorem opened_elsewhere (q : Request) (n : Link) (s : State) : Elsewhere n (arrived q s) (opened q s) :=
  (setBusy_within q.requester true _).elsewhere n

theorem opened_busy (q : Request) (s : State) : (opened q s).busy q.requester = true := by
  rw [opened, setBusy, State.busy, modClient_client, if_pos rfl]

theorem held_congr {s t : State} (h : t.roster = s.roster) (n : Link) : held t n = held s n := by
  rw [held, held, State.entry, State.entry, h]

theorem mayModify_congr {s t : State} (h : t.access = s.access) (rq : Requester) (sp : Space) (i : Nat) :
    mayModify t rq sp i = mayModify s rq sp i := by
  cases rq with
  | rcp => rfl
  | frame n => rw [mayModify, mayModify, tableModifies, tableModifies, h]

theorem refusedKind_congr {s t : State} (h : t.roster = s.roster) (rq : Requester) (kind : Byte) (clear : Bool) :
    refusedKind t rq kind clear = refusedKind s rq kind clear := by
  cases rq with
  | rcp => rfl
  | frame n => rw [refusedKind, refusedKind, State.entry, State.entry, h]

/-- A request that can reach the Request Unit does. -/
theorem arrive_of_heard {q : Request} {s : State} (h : Heard q s) (take : State → State) :
    arrive q take s = take (arrived q s) := by
  cases e : q.requester with
  | rcp =>
    have reading : s.rcp.reading = false := by simpa only [Heard, e] using h
    simp only [arrive, arrived, e, reading, Bool.false_eq_true, if_false]
  | frame n =>
    have up : (s.port n).state = .up := by simpa only [Heard, e] using h
    simp only [arrive, arrived, e, receive, up, if_true]

/-- A request that passes the checks of R168 and that its block answers at once ends with that answer. -/
theorem serve_of_taken {q : Request} {kind : Byte} {clear : Bool} {s u : State} {body : State → State × Reply}
    {status : Status} {e : Bool} {results : List Byte} (h : Taken q kind clear s)
    (hb : body (opened q s) = (u, .now status e results)) :
    serve kind clear q body s = endRequest q.requester q.tag kind status e results u := by
  obtain ⟨heard, busy, admitted⟩ := h
  have w := arrived_within q s
  have idle : (arrived q s).busy q.requester = false := (w.busy _).trans busy
  have admits : refusedKind (arrived q s) q.requester kind clear = none :=
    (refusedKind_congr (w .roster (by decide)) _ _ _).trans admitted
  rw [opened] at hb
  rw [serve, arrive_of_heard heard, takeRequest, idle, admits, hb]
  rfl

/-- An answer and a change of an in-progress flag do not meet. -/
theorem answer_setBusy (rq rq' : Requester) (b : Bool) (tag kind : Byte) (status : Status) (e : Bool)
    (results : List Byte) (s : State) :
    answer rq tag kind status e results (setBusy rq' b s) = setBusy rq' b (answer rq tag kind status e results s) := by
  cases rq <;> rfl

/-- A flag that is set and cleared again is as it was. -/
theorem setBusy_false_true (rq : Requester) (s : State) (h : s.busy rq = false) :
    setBusy rq false (setBusy rq true s) = s := by
  have client : { s.clients[clientIx rq] with busy := false } = s.clients[clientIx rq] := by
    rw [show false = s.clients[clientIx rq].busy from h.symm]
  simp only [setBusy, State.modClient, Fin.getElem_fin, Vector.getElem_set_self, Vector.set_set] at client ⊢
  rw [client, Vector.set_getElem_self]

theorem opened_holdsBack {q : Request} {s : State} (h : Heard q s) : (opened q s).holdsBack q.requester = false := by
  have rcp : (opened q s).rcp = s.rcp := opened_within q s .rcp (by decide)
  unfold Heard at h
  split at h
  · next e => rw [e, holdsBack_rcp, rcp]; exact h
  · next e => rw [e]; rfl

/-- A request that changes nothing is answered, and that is all. -/
theorem endRequest_opened {q : Request} {s : State} (heard : Heard q s) (busy : s.busy q.requester = false)
    (kind : Byte) (status : Status) (results : List Byte) :
    endRequest q.requester q.tag kind status false results (opened q s)
      = answered q kind status results (arrived q s) := by
  have idle : (arrived q s).busy q.requester = false := ((arrived_within q s).busy _).trans busy
  unfold endRequest
  rw [opened_busy, opened_holdsBack heard]
  simp only [if_true, Bool.false_eq_true, if_false]
  rw [opened, answer_setBusy, setBusy_false_true]
  · rfl
  · exact ((answer_within q.requester q.tag kind status false results _).busy _).trans idle

/-- A request that its block refuses, or has nothing to do for, is answered, and that is all. -/
theorem serve_unchanged {q : Request} {kind : Byte} {clear : Bool} {s : State} {body : State → State × Reply}
    {status : Status} (h : Taken q kind clear s) (hb : body (opened q s) = (opened q s, .of status)) :
    serve kind clear q body s = answered q kind status [] (arrived q s) := by
  obtain ⟨heard, busy, _⟩ := id h
  exact (serve_of_taken h hb).trans (endRequest_opened heard busy kind status [])

theorem answer_calm (rq : Requester) (tag kind : Byte) (status : Status) (e : Bool) (results : List Byte) (s : State) :
    Calm s (answer rq tag kind status e results s) := by
  cases rq with
  | rcp => exact ⟨fun _ _ h => h, fun _ _ => rfl⟩
  | frame n => exact offerCell_calm n _ s

theorem endRequest_calm (rq : Requester) (tag kind : Byte) (status : Status) (e : Bool) (results : List Byte)
    (s : State) : Calm s (endRequest rq tag kind status e results s) := by
  have answered := answer_calm rq tag kind status e results s
  have cleared := modClient_calm rq (fun c => { c with busy := false }) fun _ _ h => h
  unfold endRequest
  dsimp only
  split
  · split
    · exact answered
    · exact answered.trans (cleared _)
  · exact Calm.refl s

/-- The arbiter loses no waiting cell of the CONTROL and NOTICE category: it takes that cell itself, or leaves it. -/
theorem takeWaiting_ctrl {p p' : LinkPort} {x : TxCell} {c : CtrlCell} (h : takeWaiting p = some (x, p'))
    (hc : c ∈ p.waitCtrl) : c ∈ p'.waitCtrl ∨ x = .ctrl c := by
  unfold takeWaiting at h
  split at h; · cases h; exact .inl hc
  split at h; · cases h; exact .inl hc
  split at h; · cases h; exact .inl hc
  split at h; · cases h; exact .inl hc
  split at h
  · next first rest e =>
    cases h
    rw [e] at hc
    rcases List.mem_cons.mp hc with rfl | hc
    · exact .inr rfl
    · exact .inl hc
  · cases h

theorem startCell_ctrl {p : LinkPort} {c : CtrlCell} (hc : c ∈ p.waitCtrl) :
    c ∈ (startCell p).waitCtrl ∨ (startCell p).tx = some (.cell (.ctrl c)) := by
  unfold startCell
  split
  · split
    · next x p' h =>
      rcases takeWaiting_ctrl h hc with w | rfl
      · exact .inl w
      · exact .inr rfl
    · exact .inl hc
  · exact .inl hc

theorem offerToPort_state (c : TxCell) (p : LinkPort) : (offerToPort c p).state = p.state := by
  have state := congrArg LinkPort.state (offerToPort_service c p)
  exact state

/-- A cell of the CONTROL and NOTICE category offered to a port in service waits there or is being sent (R12). -/
theorem offerToPort_ctrl (c : CtrlCell) (p : LinkPort) (h : inService p.state = true) :
    c ∈ (offerToPort (.ctrl c) p).waitCtrl ∨ (offerToPort (.ctrl c) p).tx = some (.cell (.ctrl c)) := by
  have taken : arbiterTakes p.state (.ctrl c) = true := by
    cases hp : p.state <;> simp_all [inService, arbiterTakes]
  rw [offerToPort, if_pos taken]
  exact startCell_ctrl (List.mem_append_right _ List.mem_cons_self)

/-- The response of a request that is in progress, or that the link-level reset has ended on a link no longer in
service (R14, R169 to R171). -/
theorem endRequest_responded {q : Request} {s u : State} (heard : Heard q s) (rcp : u.rcp = s.rcp)
    (live : u.busy q.requester = true
      ∨ ∃ n, q.requester = .frame n ∧ u.busy (.frame n) = false ∧ inService (u.port n).state = false)
    (kind : Byte) (status : Status) (results : List Byte) :
    Responded q kind status results s (endRequest q.requester q.tag kind status false results u) := by
  unfold Heard at heard
  unfold Responded
  split
  · next n e =>
    rw [e] at live ⊢
    rcases live with busy | ⟨m, hm, busy, out⟩
    · rw [endRequest, if_pos busy]
      simp only [holdsBack_frame, Bool.false_eq_true, if_false]
      refine ⟨by rw [setBusy, State.busy, modClient_client, if_pos rfl], fun h => ?_⟩
      rw [setBusy, modClient_port, answer, respond, offerCell, modPort_port, if_pos rfl] at h ⊢
      exact offerToPort_ctrl _ _ (by rwa [offerToPort_state] at h)
    · cases hm
      rw [endRequest, busy]
      simp [busy, out]
  · next e =>
    rw [e] at live heard ⊢
    have busy : u.busy .rcp = true := by simpa using live
    simp only [heard, Bool.false_eq_true, if_false]
    rw [endRequest, if_pos busy]
    simp only [holdsBack_rcp, rcp, heard, Bool.false_eq_true, if_false, answer, respond]
    exact ⟨by rw [setBusy, State.busy, modClient_client, if_pos rfl], rfl, rfl⟩

end Sys2Proof.Machine
end

section
/-! SUPPORT. LINK_ENABLE (R17), and the proof of O30. -/

namespace Sys2Proof.Machine

-- One declaration after another: the checks of the proofs by decide would otherwise wait for each other in many threads.
set_option Elab.async false

/-! ### LINK_ENABLE (R17) -/

theorem setEnable_within (n : Link) (on : Bool) (s : State) : Within moved s (setEnable n on s) := by
  have stored : Within moved s (s.modPort n fun p => { p with enabled := on }) := (modPort_within n _ s).mono (by decide)
  unfold setEnable
  split
  · exact Within.refl _ s
  · dsimp only
    split
    · exact stored.trans (leaveOff_within n _)
    · exact stored.trans (portOff_within n _)

theorem portOff_confined (n : Link) (s : State) : Confined n s (portOff n s) := by
  unfold portOff
  split
  · exact (Settled.refl n s).toConfined
  · exact portIdle_confined n .off s

theorem portOff_setting (n : Link) (s : State) :
    ((portOff n s).port n).setting = (.off, (s.port n).setting.2) := by
  unfold portOff
  split
  · next off => rw [← off]; rfl
  · exact portIdle_setting n .off s

theorem setEnable_confined (n : Link) (on : Bool) (s : State) : Confined n s (setEnable n on s) := by
  have stored := modPort_confined n (fun p => { p with enabled := on }) s
  unfold setEnable
  split
  · exact (Settled.refl n s).toConfined
  · dsimp only
    split
    · exact stored.trans (leaveOff_confined n _)
    · exact stored.trans (portOff_confined n _)

/-- Writing the setting the port already has changes nothing (R17). -/
theorem setEnable_same {n : Link} {on : Bool} {s : State} (h : (s.port n).enabled = on) : setEnable n on s = s :=
  if_pos h

/-- OFF takes the port to OFF (R1, R17). -/
theorem setEnable_off {n : Link} {s : State} (h : (s.port n).enabled = true) :
    setEnable n false s = portOff n (s.modPort n fun p => { p with enabled := false }) := by
  simp [setEnable, h]

/-- ON lets the port out of OFF (R1, R17). -/
theorem setEnable_on {n : Link} {s : State} (h : (s.port n).enabled = false) :
    setEnable n true s = leaveOff n (s.modPort n fun p => { p with enabled := true }) := by
  simp [setEnable, h]

theorem setEnable_off_setting {n : Link} {s : State} (h : (s.port n).enabled = true) :
    ((setEnable n false s).port n).setting = (.off, false, (s.port n).failCount, (s.port n).activity) := by
  rw [setEnable_off h, portOff_setting, modPort_port, if_pos rfl]
  rfl

theorem setEnable_on_setting {n : Link} {s : State} (h : (s.port n).enabled = false) (off : (s.port n).state = .off)
    (entry : held s n = false) :
    ((setEnable n true s).port n).setting
      = (downOrTraining n (s.port n).failCount s, true, (s.port n).failCount, (s.port n).activity) := by
  have stored : (s.modPort n fun p => { p with enabled := true }).port n = { s.port n with enabled := true } := by
    rw [modPort_port, if_pos rfl]
  have conditions : downOrTraining n (s.port n).failCount (s.modPort n fun p => { p with enabled := true })
      = downOrTraining n (s.port n).failCount s :=
    downOrTraining_congr ((modPort_within n _ s).mono (by decide)) (by rw [stored]) _
  have left := leaveOff_setting n (s.modPort n fun p => { p with enabled := true }) (by rw [stored]; exact off)
    (by rw [stored]) (of_decide_eq_false entry)
  rw [setEnable_on h, left, stored]
  simp only [LinkPort.setting, conditions]

/-- A port that OFF takes out of another state leaves nothing on its link, tells all, and ends the request of Fn. -/
theorem setEnable_off_leaves {n : Link} {s : State} (h : (s.port n).enabled = true) (st : (s.port n).state ≠ .off) :
    Emptied n (setEnable n false s) ∧ ToldAll .link (setEnable n false s)
      ∧ (setEnable n false s).busy (.frame n) = false := by
  rw [setEnable_off h, portOff, if_neg (by rw [modPort_port, if_pos rfl]; exact st)]
  exact ⟨portIdle_emptied n .off _ rfl, portIdle_toldAll n .off _, portIdle_busy n .off _⟩

/-- LINK_ENABLE once its link, its permission and its setting are read: refused for a QUIESCED entry, else stored. -/
theorem linkEnableBody_opened {q : Request} {n : Link} {rest : List Byte} {on : Bool} {s : State}
    (link : readLink q.args = some (n, rest)) (permitted : mayModify s q.requester .link n.val = true)
    (setting : settingArg rest = some on) :
    linkEnableBody q (opened q s)
      = if held s n then refuse .state (opened q s) else (setEnable n on (opened q s), .of .ok) := by
  have w := opened_within q s
  simp only [linkEnableBody, onLink, link, setting, mayModify_congr (w .access (by decide)),
    held_congr (w .roster (by decide)), permitted, if_true]

theorem linkEnableBody_noAccess {q : Request} {n : Link} {rest : List Byte} {s : State}
    (link : readLink q.args = some (n, rest)) (denied : mayModify s q.requester .link n.val = false) :
    linkEnableBody q (opened q s) = (opened q s, .of .noAccess) := by
  have w := opened_within q s
  simp only [linkEnableBody, onLink, link, mayModify_congr (w .access (by decide)), denied, Bool.false_eq_true, if_false,
    refuse]

theorem exec_linkEnable (q : Request) (s : State) :
    exec (.linkEnable q) s = .next (serve kindLinkEnable false q (linkEnableBody q) s) := rfl

/-- The state in which an accepted LINK_ENABLE ends. -/
def enabledBy (q : Request) (n : Link) (on : Bool) (s : State) : State :=
  endRequest q.requester q.tag kindLinkEnable .ok false [] (setEnable n on (opened q s))

theorem exec_linkEnable_accepted {q : Request} {n : Link} {rest : List Byte} {on : Bool} {s : State}
    (taken : Taken q kindLinkEnable false s) (link : readLink q.args = some (n, rest))
    (permitted : mayModify s q.requester .link n.val = true) (setting : settingArg rest = some on)
    (entry : held s n = false) : exec (.linkEnable q) s = .next (enabledBy q n on s) := by
  rw [exec_linkEnable, serve_of_taken (u := setEnable n on (opened q s)) (status := .ok) (e := false) (results := [])
    taken ?_]
  · rfl
  · rw [linkEnableBody_opened link permitted setting, entry]
    rfl

/-- The answer leaves the setting of the port as the request has made it. -/
theorem enabledBy_setting (q : Request) (n : Link) (on : Bool) (s : State) :
    ((enabledBy q n on s).port n).setting = ((setEnable n on (opened q s)).port n).setting :=
  LinkPort.setting_of_service (endRequest_within _ _ _ _ _ _ _ .service (by decide) n)

theorem enabledBy_elsewhere (q : Request) (n : Link) (on : Bool) (s : State) :
    Elsewhere n (arrived q s) (enabledBy q n on s) :=
  ((opened_elsewhere q n s).trans (setEnable_confined n on _).elsewhere).trans
    ((endRequest_within q.requester q.tag kindLinkEnable .ok false [] _).elsewhere n)

/-- Every accepted LINK_ENABLE has its response; where it ends the request of Fn itself, link n is out of service. -/
theorem enabledBy_responded {q : Request} {n : Link} {on : Bool} {s : State} (heard : Heard q s)
    (ended : q.requester = .frame n → (setEnable n on (opened q s)).busy (.frame n) = false
      ∧ inService ((setEnable n on (opened q s)).port n).state = false) :
    Responded q kindLinkEnable .ok [] s (enabledBy q n on s) := by
  refine endRequest_responded heard ?_ ?_ kindLinkEnable .ok []
  · exact (setEnable_within n on _ .rcp (by decide)).trans (opened_within q s .rcp (by decide))
  · by_cases own : q.requester = .frame n
    · exact .inr ⟨n, own, ended own⟩
    · exact .inl (((setEnable_confined n on _).busy _ own).trans (opened_busy q s))

/-- A frame whose port is OFF sends no request (R7). -/
theorem requester_ne_of_off {q : Request} {n : Link} {s : State} (heard : Heard q s) (off : (s.port n).state = .off) :
    q.requester ≠ .frame n := by
  intro own
  rw [Heard, own] at heard
  simp [off] at heard

theorem enabledBy_off_setting {q : Request} {n : Link} {s : State} (h : (s.port n).enabled = true) :
    ((enabledBy q n false s).port n).setting = (.off, false, (s.port n).failCount, (s.port n).activity) := by
  rw [enabledBy_setting, setEnable_off_setting ((opened_enabled q s n).trans h), opened_failCount, opened_activity]

theorem enabledBy_on_setting {q : Request} {n : Link} {s : State} (h : (s.port n).enabled = false)
    (off : (s.port n).state = .off) (entry : held s n = false) :
    ((enabledBy q n true s).port n).setting
      = (downOrTraining n (s.port n).failCount s, true, (s.port n).failCount, (s.port n).activity) := by
  have within := opened_within q s
  rw [enabledBy_setting, setEnable_on_setting ((opened_enabled q s n).trans h) ((opened_state q s n).trans off)
    ((held_congr (within .roster (by decide)) n).trans entry), opened_failCount, opened_activity,
    downOrTraining_congr (within.mono (by decide)) (opened_activity q s n)]

/-- The answer neither fills the link that OFF has emptied nor takes a notice back. -/
theorem enabledBy_off_leaves {q : Request} {n : Link} {s : State} (h : (s.port n).enabled = true)
    (st : (s.port n).state ≠ .off) : Emptied n (enabledBy q n false s) ∧ ToldAll .link (enabledBy q n false s) := by
  have was : ((opened q s).port n).enabled = true := (opened_enabled q s n).trans h
  obtain ⟨emptied, told, -⟩ := setEnable_off_leaves was (by rw [opened_state]; exact st)
  have off : ((setEnable n false (opened q s)).port n).state = .off := congrArg (·.1) (setEnable_off_setting was)
  have calm := endRequest_calm q.requester q.tag kindLinkEnable .ok false [] (setEnable n false (opened q s))
  have egress := endRequest_within q.requester q.tag kindLinkEnable .ok false [] (setEnable n false (opened q s))
    .egress (by decide)
  exact ⟨emptied.congr (by rw [enabledBy, State.queues, egress, State.queues]) (calm.idle n (by rw [off]; rfl)),
    calm.toldAll told⟩

/-- OFF ends the request of Fn itself, whose port was UP when it came (R7, R14). -/
theorem setEnable_off_ends {q : Request} {n : Link} {s : State} (heard : Heard q s) (h : (s.port n).enabled = true)
    (own : q.requester = .frame n) :
    (setEnable n false (opened q s)).busy (.frame n) = false
      ∧ inService ((setEnable n false (opened q s)).port n).state = false := by
  have was : ((opened q s).port n).enabled = true := (opened_enabled q s n).trans h
  have off : ((setEnable n false (opened q s)).port n).state = .off := congrArg (·.1) (setEnable_off_setting was)
  obtain ⟨-, -, ended⟩ := setEnable_off_leaves was fun e =>
    requester_ne_of_off heard ((opened_state q s n).symm.trans e) own
  exact ⟨ended, by rw [off]; rfl⟩

end Sys2Proof.Machine

open Sys2Proof Sys2Proof.Machine

/-- Settles O30: an accepted LINK_ENABLE ends in `enabledBy`, read off part by part; every other one leaves its block's
state as it was, and is answered. -/
theorem linkEnableSetsThePort : Obligations.LinkEnableSetsThePort := by
  unfold Obligations.LinkEnableSetsThePort
  refine ⟨?off, ?on, ?same, ?quiesced, ?noAccess⟩
  case off =>
    intro q n rest s taken link permitted setting entry enabled
    have heard := taken.1
    have ends := enabledBy_off_setting (q := q) enabled
    simp only [LinkPort.setting, Prod.mk.injEq] at ends
    obtain ⟨state, stored, failCount, -⟩ := ends
    exact ⟨enabledBy q n false s, exec_linkEnable_accepted taken link permitted setting entry, state, stored, failCount,
      enabledBy_off_leaves enabled, enabledBy_responded heard (setEnable_off_ends heard enabled),
      enabledBy_elsewhere q n false s⟩
  case on =>
    intro q n rest s taken link permitted setting entry enabled off
    have heard := taken.1
    have ends := enabledBy_on_setting (q := q) enabled off entry
    simp only [LinkPort.setting, Prod.mk.injEq] at ends
    obtain ⟨state, stored, failCount, -⟩ := ends
    exact ⟨enabledBy q n true s, exec_linkEnable_accepted taken link permitted setting entry, state, stored, failCount,
      enabledBy_responded heard fun own => absurd own (requester_ne_of_off heard off), enabledBy_elsewhere q n true s⟩
  case same =>
    intro q n rest on s taken link permitted setting entry same
    have kept : setEnable n on (opened q s) = opened q s := setEnable_same ((opened_enabled q s n).trans same)
    rw [exec_linkEnable, serve_unchanged (status := .ok) taken]
    rw [linkEnableBody_opened link permitted setting, entry, kept]
    rfl
  case quiesced =>
    intro q n rest on s taken link permitted setting entry
    rw [exec_linkEnable, serve_unchanged (status := .state) taken]
    rw [linkEnableBody_opened link permitted setting, entry]
    rfl
  case noAccess =>
    intro q n rest s taken link denied
    rw [exec_linkEnable, serve_unchanged taken (linkEnableBody_noAccess link denied)]
end

section
/-! SUPPORT. LINK_MARGIN START (R28), and the proof of O34. -/

namespace Sys2Proof.Machine

/-! ### Requests that name a link, and requests answered at once with a change -/

theorem opened_margin (q : Request) (s : State) (n : Link) : (opened q s).margin n = s.margin n := by
  rw [State.margin, opened_within q s .margins (by decide), State.margin]

theorem opened_entry (q : Request) (s : State) (n : Link) : (opened q s).entry n = s.entry n := by
  rw [State.entry, opened_within q s .roster (by decide), State.entry]

theorem opened_lanes (q : Request) (s : State) (n : Link) : ((opened q s).port n).lanes = (s.port n).lanes := by
  unfold opened arrived
  cases q.requester with
  | rcp => rfl
  | frame m =>
    rw [setBusy, modClient_port, modPort_port]
    split
    · next e => subst e; rfl
    · rfl

/-- With a link and the permission on it, the block of a request goes on with the link's number. -/
theorem onLink_permitted {q : Request} {sp : Space} {n : Link} {rest : List Byte} {s : State}
    (link : readLink q.args = some (n, rest)) (permitted : mayModify s q.requester sp n.val = true)
    (body : Link → List Byte → State → State × Reply) :
    onLink q mayModify sp body (opened q s) = body n rest (opened q s) := by
  have w := opened_within q s
  simp only [onLink, link, mayModify_congr (w .access (by decide)), permitted, if_true]

theorem onLink_denied {q : Request} {sp : Space} {n : Link} {rest : List Byte} {s : State}
    (link : readLink q.args = some (n, rest)) (denied : mayModify s q.requester sp n.val = false)
    (body : Link → List Byte → State → State × Reply) :
    onLink q mayModify sp body (opened q s) = (opened q s, .of .noAccess) := by
  have w := opened_within q s
  simp only [onLink, link, mayModify_congr (w .access (by decide)), denied, Bool.false_eq_true, if_false, refuse]

theorem onLink_noLink {q : Request} (link : readLink q.args = none)
    (allowed : State → Requester → Space → Nat → Bool) (sp : Space)
    (body : Link → List Byte → State → State × Reply) (s : State) :
    onLink q allowed sp body s = (s, .of .badArg) := by
  simp only [onLink, link, refuse]

/-- The end of a request that was not in progress before it came, as an answer in the state its block leaves. -/
theorem endRequest_setBusy {q : Request} {t : State} (busy : t.busy q.requester = false)
    (free : t.holdsBack q.requester = false) (kind : Byte) (status : Status) (results : List Byte) :
    endRequest q.requester q.tag kind status false results (setBusy q.requester true t)
      = answered q kind status results t := by
  have flag : (setBusy q.requester true t).busy q.requester = true := by
    rw [setBusy, State.busy, modClient_client, if_pos rfl]
  have free' : (setBusy q.requester true t).holdsBack q.requester = false := free
  unfold endRequest
  rw [flag, free']
  simp only [if_true, Bool.false_eq_true, if_false]
  rw [answer_setBusy, setBusy_false_true]
  · rfl
  · exact ((answer_within q.requester q.tag kind status false results t).busy _).trans busy

/-- A request whose block changes one Lane Margin Unit is answered in the changed state. -/
theorem serve_modMargin {q : Request} {kind : Byte} {clear : Bool} {s : State} {body : State → State × Reply}
    {status : Status} {n : Link} {f : MarginUnit → MarginUnit} (h : Taken q kind clear s)
    (hb : body (opened q s) = ((opened q s).modMargin n f, .of status)) :
    serve kind clear q body s = answered q kind status [] ((arrived q s).modMargin n f) := by
  obtain ⟨heard, busy, -⟩ := id h
  have idle : ((arrived q s).modMargin n f).busy q.requester = false := ((arrived_within q s).busy _).trans busy
  have free : ((arrived q s).modMargin n f).holdsBack q.requester = false := opened_holdsBack heard
  exact (serve_of_taken h hb).trans (endRequest_setBusy idle free kind status [])

/-! ### The arguments of LINK_MARGIN START (Table 11.4 (1)) -/

theorem readCode_cons_eq_some {α : Type} {values : List α} {c : Byte} {more rest : List Byte} {v : α} :
    readCode values (c :: more) = some (v, rest) ↔ values[c.toNat]? = some v ∧ rest = more := by
  simp [readCode, eq_comm]

theorem read8_cons_eq_some {c : Byte} {more rest : List Byte} {v : Nat} :
    read8 (c :: more) = some (v, rest) ↔ v = c.toNat ∧ rest = more := by
  simp [read8, eq_comm]

/-- The codes of a field that tells two values apart. -/
theorem getElem?_pair_eq_some {α : Type} {x y v : α} {c : Byte} :
    [x, y][c.toNat]? = some v ↔ c.toNat ≤ 1 ∧ v = if c = 0 then x else y := by
  have zero : c = 0 ↔ c.toNat = 0 := by simp [← BitVec.toNat_inj]
  simp only [zero]
  match c.toNat with
  | 0 => simp [eq_comm]
  | 1 => simp [eq_comm]
  | k + 2 => simp

/-- A lane is its own code. -/
theorem getElem?_lanes_eq_some {l : Lane} {i : Nat} : ([0, 1, 2, 3] : List Lane)[i]? = some l ↔ i ≤ 3 ∧ l.val = i := by
  match i with
  | 0 | 1 | 2 | 3 => revert l; decide
  | k + 4 => simp

/-- A link is its own code. -/
theorem getElem?_allLinks_eq_some {n : Link} {i : Nat} : allLinks[i]? = some n ↔ i = n.val := by
  match i with
  | 0 | 1 | 2 | 3 | 4 | 5 => revert n; decide
  | k + 6 =>
    have large : k + 6 ≠ n.val := by omega
    simp [allLinks, large]

theorem readLink_cons_eq_some {link : Byte} {more rest : List Byte} {n : Link} :
    readLink (link :: more) = some (n, rest) ↔ link.toNat = n.val ∧ rest = more := by
  rw [readLink, readCode_cons_eq_some, getElem?_allLinks_eq_some]

theorem readLink_cons_eq_none {link : Byte} {more : List Byte} (h : 5 < link.toNat) : readLink (link :: more) = none := by
  refine Option.eq_none_iff_forall_ne_some.mpr fun ⟨n, rest⟩ read => ?_
  have code := (readLink_cons_eq_some.mp read).1
  omega

/-- The fields of a LINK_MARGIN START are read in the order in which they stand. -/
theorem probeArgs_eq_some {lane kind direction steps errors : Byte} {more : List Byte} {a : ProbeArgs} :
    probeArgs (0 :: lane :: kind :: direction :: steps :: errors :: more) = some a ↔
      ([0, 1, 2, 3] : List Lane)[lane.toNat]? = some a.lane
        ∧ [ProbeKind.timing, .level][kind.toNat]? = some a.kind
        ∧ [ProbeDirection.plus, .minus][direction.toNat]? = some a.direction
        ∧ (1 ≤ steps.toNat ∧ steps.toNat ≤ 31 ∧ errors.toNat ≤ 63)
        ∧ a.stepLimit = steps.toNat ∧ a.errorLimit = errors.toNat := by
  simp only [probeArgs, Option.bind_eq_bind, Option.bind_eq_some_iff, Prod.exists, readCode_cons_eq_some,
    read8_cons_eq_some, and_assoc, exists_eq_left, exists_and_left]
  by_cases range : 1 ≤ steps.toNat ∧ steps.toNat ≤ 31 ∧ errors.toNat ≤ 63
  · constructor
    · rintro ⟨_, -, l, lane, k, kind, d, direction, made⟩
      rw [if_pos range] at made
      cases made
      obtain ⟨stepsPos, stepsOk, errorsOk⟩ := range
      exact ⟨lane, kind, direction, stepsPos, stepsOk, errorsOk, rfl, rfl⟩
    · rintro ⟨lane, kind, direction, -, -, -, stepLimit, errorLimit⟩
      refine ⟨(), rfl, a.lane, lane, a.kind, kind, a.direction, direction, ?_⟩
      rw [if_pos range, ← stepLimit, ← errorLimit]
  · simp only [if_neg range, reduceCtorEq, and_false, exists_false, false_iff]
    tauto

/-- Which bytes are the fields of a probe, and the ranges that check 3 of Table 2.5 (1) asks of them. -/
theorem probeArgs_iff_fields {lane kind direction steps errors : Byte} {more : List Byte} {a : ProbeArgs} :
    probeArgs (0 :: lane :: kind :: direction :: steps :: errors :: more) = some a ↔
      (lane.toNat ≤ 3 ∧ kind.toNat ≤ 1 ∧ direction.toNat ≤ 1 ∧ 1 ≤ steps.toNat ∧ steps.toNat ≤ 31
        ∧ errors.toNat ≤ 63)
        ∧ a.lane.val = lane.toNat ∧ a.kind = (if kind = 0 then .timing else .level)
        ∧ a.direction = (if direction = 0 then .plus else .minus) ∧ a.stepLimit = steps.toNat
        ∧ a.errorLimit = errors.toNat := by
  rw [probeArgs_eq_some, getElem?_lanes_eq_some, getElem?_pair_eq_some, getElem?_pair_eq_some]
  tauto

/-- A field out of its range makes the arguments unreadable: it is refused, not clamped. -/
theorem probeArgs_eq_none {lane kind direction steps errors : Byte} {more : List Byte}
    (bad : 3 < lane.toNat ∨ 1 < kind.toNat ∨ 1 < direction.toNat ∨ steps = 0 ∨ 31 < steps.toNat ∨ 63 < errors.toNat) :
    probeArgs (0 :: lane :: kind :: direction :: steps :: errors :: more) = none := by
  refine Option.eq_none_iff_forall_ne_some.mpr fun a read => ?_
  obtain ⟨⟨laneOk, kindOk, directionOk, stepsPos, stepsOk, errorsOk⟩, -⟩ := probeArgs_iff_fields.mp read
  have stepsNe : steps ≠ 0 := by
    rintro rfl
    exact absurd stepsPos (by decide)
  simp only [stepsNe, false_or] at bad
  omega

/-! ### The checks of Table 2.5 (1) and the start of a probe -/

theorem startProbe_badArg {rq : Requester} {n : Link} {rest : List Byte} {s : State} (args : probeArgs rest = none) :
    startProbe rq n rest s = (s, .of .badArg) := by
  simp only [startProbe, args, refuse]

theorem startProbe_busy {rq : Requester} {n : Link} {rest : List Byte} {a : ProbeArgs} {s : State}
    (args : probeArgs rest = some a) (running : (s.margin n).probe.isSome = true) :
    startProbe rq n rest s = (s, .of .busy) := by
  simp only [startProbe, args, running, if_true, refuse]

/-- A link not UP, a lane outside the active lane set, and an entry neither PENDING nor ACTIVE have one answer. -/
theorem startProbe_state {rq : Requester} {n : Link} {rest : List Byte} {a : ProbeArgs} {s : State}
    (args : probeArgs rest = some a) (idle : (s.margin n).probe = none)
    (unfit : (s.port n).state ≠ .up ∨ (s.port n).lanes.getLsbD a.lane = false
      ∨ ((s.entry n).state ≠ .pending ∧ (s.entry n).state ≠ .active)) :
    startProbe rq n rest s = (s, .of .state) := by
  simp only [startProbe, args, idle, Option.isSome_none, Bool.false_eq_true, if_false, refuse]
  by_cases link : (s.port n).state ≠ .up ∨ (s.port n).lanes.getLsbD a.lane = false
  · rw [if_pos link]
  · rw [if_neg link, if_pos ((or_assoc.mpr unfit).resolve_left link)]

/-- The Lane Margin Unit with the probe that a LINK_MARGIN START asks for, begun now (R22). -/
def withStarted (rq : Requester) (a : ProbeArgs) (osc : Nat) (m : MarginUnit) : MarginUnit :=
  { m with probe := some (newProbe (.request rq) a.lane a.kind a.direction a.stepLimit a.errorLimit osc) }

theorem startProbe_accepted {rq : Requester} {n : Link} {rest : List Byte} {a : ProbeArgs} {s : State}
    (args : probeArgs rest = some a) (idle : (s.margin n).probe = none) (up : (s.port n).state = .up)
    (active : (s.port n).lanes.getLsbD a.lane = true) (entry : (s.entry n).state = .pending ∨ (s.entry n).state = .active) :
    startProbe rq n rest s = (s.modMargin n (withStarted rq a s.osc), .of .accepted) := by
  have admitted : ¬ ((s.entry n).state ≠ .pending ∧ (s.entry n).state ≠ .active) := by tauto
  simp only [startProbe, args, idle, up, active, if_neg admitted, Option.isSome_none, Bool.false_eq_true,
    Bool.true_eq_false, ne_eq, not_true_eq_false, or_self, if_false]
  rfl

theorem exec_linkMarginStart (q : Request) (s : State) :
    exec (.linkMarginStart q) s = .next (serve kindLinkMargin false q (linkMarginStartBody q) s) := rfl

/-- A LINK_MARGIN START that its block refuses changes nothing. -/
theorem exec_linkMarginStart_refused {q : Request} {s : State} {status : Status}
    (taken : Taken q kindLinkMargin false s)
    (refused : linkMarginStartBody q (opened q s) = (opened q s, .of status)) :
    exec (.linkMarginStart q) s = .next (answered q kindLinkMargin status [] (arrived q s)) := by
  rw [exec_linkMarginStart, serve_unchanged taken refused]

end Sys2Proof.Machine

open Sys2Proof Sys2Proof.Machine

/-- Settles O34: each check of Table 2.5 (1) that fails refuses the request as its block finds it, and the fields are
read by their codes. -/
theorem marginStartBeginsAProbe : Obligations.MarginStartBeginsAProbe := by
  unfold Obligations.MarginStartBeginsAProbe
  refine ⟨?accepted, ?busy, ?state, ?noLink, ?noAccess, ?badField, ?fields, ?link⟩
  case accepted =>
    intro q n rest a s taken link permitted args idle up active entry
    have osc : (opened q s).osc = s.osc := opened_within q s .osc (by decide)
    rw [exec_linkMarginStart, serve_modMargin (f := withStarted q.requester a s.osc) (status := .accepted) taken]
    · rfl
    · rw [← osc]
      exact (onLink_permitted link permitted _).trans (startProbe_accepted args (by rwa [opened_margin])
        (by rwa [opened_state]) (by rwa [opened_lanes]) (by rwa [opened_entry]))
  case busy =>
    intro q n rest a s taken link permitted args running
    exact exec_linkMarginStart_refused taken
      ((onLink_permitted link permitted _).trans (startProbe_busy args (by rwa [opened_margin])))
  case state =>
    intro q n rest a s taken link permitted args idle unfit
    exact exec_linkMarginStart_refused taken ((onLink_permitted link permitted _).trans
      (startProbe_state args (by rwa [opened_margin]) (by rwa [opened_state, opened_lanes, opened_entry])))
  case noLink =>
    intro q link rest s taken args large
    have noLink : readLink q.args = none := by rw [args, readLink_cons_eq_none large]
    exact exec_linkMarginStart_refused taken (onLink_noLink noLink _ _ _ _)
  case noAccess =>
    intro q n rest s taken link denied
    exact exec_linkMarginStart_refused taken (onLink_denied link denied _)
  case badField =>
    intro q n lane kind direction steps errors more s taken link permitted bad
    exact exec_linkMarginStart_refused taken
      ((onLink_permitted link permitted _).trans (startProbe_badArg (probeArgs_eq_none bad)))
  case fields => exact fun _ _ _ _ _ _ _ => probeArgs_iff_fields
  case link => exact fun _ _ _ _ => readLink_cons_eq_some
end

section
/-! SUPPORT. CAPTURE_PEEK and CAPTURE_POP (R134), and the proof of O51. -/

namespace Sys2Proof.Machine

/-! ### Requests answered at once with results, and requests refused before their block sees them -/

theorem mayRead_congr {s t : State} (h : t.access = s.access) (rq : Requester) (sp : Space) (i : Nat) :
    mayRead t rq sp i = mayRead s rq sp i := by
  cases rq with
  | rcp => rfl
  | frame n => rw [mayRead, mayRead, tableReads, tableReads, tableModifies, tableModifies, h]

theorem opened_mayRead (q : Request) (s : State) (sp : Space) (i : Nat) :
    mayRead (opened q s) q.requester sp i = mayRead s q.requester sp i :=
  mayRead_congr (opened_within q s .access (by decide)) _ _ _

theorem opened_mayModify (q : Request) (s : State) (sp : Space) (i : Nat) :
    mayModify (opened q s) q.requester sp i = mayModify s q.requester sp i :=
  mayModify_congr (opened_within q s .access (by decide)) _ _ _

theorem opened_captures (q : Request) (s : State) : (opened q s).captures = s.captures :=
  opened_within q s .captures (by decide)

/-- A request that its block answers with results and without a change is answered, and that is all. -/
theorem serve_read {q : Request} {kind : Byte} {clear : Bool} {s : State} {body : State → State × Reply}
    {status : Status} {results : List Byte} (h : Taken q kind clear s)
    (hb : body (opened q s) = (opened q s, .now status false results)) :
    serve kind clear q body s = answered q kind status results (arrived q s) := by
  obtain ⟨heard, busy, -⟩ := id h
  exact (serve_of_taken h hb).trans (endRequest_opened heard busy kind status results)

/-- A request whose block goes over to the state `t`, with the request in progress, is answered in `t`. -/
theorem serve_changed {q : Request} {kind : Byte} {clear : Bool} {s t : State} {body : State → State × Reply}
    {status : Status} {results : List Byte} (h : Taken q kind clear s) (idle : t.busy q.requester = false)
    (free : t.holdsBack q.requester = false)
    (hb : body (opened q s) = (setBusy q.requester true t, .now status false results)) :
    serve kind clear q body s = answered q kind status results t :=
  (serve_of_taken h hb).trans (endRequest_setBusy idle free kind status results)

/-- A request that fails the third or fourth check of R168 is answered so, and its block does not see it. -/
theorem serve_refusedKind {q : Request} {kind : Byte} {clear : Bool} {s : State} {status : Status} (heard : Heard q s)
    (busy : s.busy q.requester = false) (refused : refusedKind s q.requester kind clear = some status)
    (body : State → State × Reply) :
    serve kind clear q body s = answered q kind status [] (arrived q s) := by
  have w := arrived_within q s
  have idle : (arrived q s).busy q.requester = false := (w.busy _).trans busy
  have refused' : refusedKind (arrived q s) q.requester kind clear = some status :=
    (refusedKind_congr (w .roster (by decide)) _ _ _).trans refused
  rw [serve, arrive_of_heard heard, takeRequest, idle, refused']
  rfl

/-- What a DRAINING frame may ask: a reading kind of Table 3.9 (1) without the clear option, and nothing else (R53). -/
theorem refusedKind_draining {s : State} {n : Link} {kind : Byte} {clear : Bool}
    (draining : (s.entry n).state = .draining) (unreserved : reservedKinds.contains kind = false) :
    refusedKind s (.frame n) kind clear = if drainingKinds.contains kind && !clear then none else some .state := by
  simp only [refusedKind, unreserved, draining, rosterAdmits, Bool.false_eq_true, if_false]

/-! ### What the Capture Unit answers -/

theorem capturePeekBody_cons {q : Request} {t : State} {c : Capture} {rest : List Capture}
    (permitted : mayRead t q.requester .capture 0 = true) (queue : t.captures = c :: rest) :
    capturePeekBody q t = (t, .ok (captureRecord c ++ [BitVec.ofNat 8 (rest.length + 1)])) := by
  simp only [capturePeekBody, permitted, queue, if_true, enc8, List.length_cons]

theorem capturePeekBody_nil {q : Request} {t : State} (permitted : mayRead t q.requester .capture 0 = true)
    (queue : t.captures = []) : capturePeekBody q t = (t, .now .notFound false [0]) := by
  simp only [capturePeekBody, permitted, queue, if_true, enc8, BitVec.ofNat_eq_ofNat]

theorem capturePeekBody_denied {q : Request} {t : State} (denied : mayRead t q.requester .capture 0 = false) :
    capturePeekBody q t = (t, .of .noAccess) := by
  simp only [capturePeekBody, denied, Bool.false_eq_true, if_false, refuse]

theorem capturePopBody_cons {q : Request} {t : State} {c : Capture} {rest : List Capture}
    (permitted : mayModify t q.requester .capture 0 = true) (queue : t.captures = c :: rest) :
    capturePopBody q t
      = ({ t with captures := rest }, .ok (captureRecord c ++ [BitVec.ofNat 8 rest.length])) := by
  simp only [capturePopBody, permitted, queue, if_true, enc8]

theorem capturePopBody_nil {q : Request} {t : State} (permitted : mayModify t q.requester .capture 0 = true)
    (queue : t.captures = []) : capturePopBody q t = (t, .of .notFound) := by
  simp only [capturePopBody, permitted, queue, if_true, refuse]

theorem capturePopBody_denied {q : Request} {t : State} (denied : mayModify t q.requester .capture 0 = false) :
    capturePopBody q t = (t, .of .noAccess) := by
  simp only [capturePopBody, denied, Bool.false_eq_true, if_false, refuse]

theorem exec_capturePeek (q : Request) (s : State) :
    exec (.capturePeek q) s = .next (serve kindCapturePeek false q (capturePeekBody q) s) := rfl

theorem exec_capturePop (q : Request) (s : State) :
    exec (.capturePop q) s = .next (serve kindCapturePop false q (capturePopBody q) s) := rfl

/-- A CAPTURE_POP that its block answers with a record leaves the rest of the queue, with the request still in
progress. -/
theorem serve_capturePop_cons {q : Request} {s : State} {c : Capture} {rest : List Capture}
    (taken : Taken q kindCapturePop false s) (permitted : mayModify s q.requester .capture 0 = true)
    (queue : s.captures = c :: rest) :
    serve kindCapturePop false q (capturePopBody q) s
      = answered q kindCapturePop .ok (captureRecord c ++ [BitVec.ofNat 8 rest.length])
          { arrived q s with captures := rest } := by
  obtain ⟨heard, busy, -⟩ := id taken
  have idle : (arrived q s).busy q.requester = false := ((arrived_within q s).busy _).trans busy
  have free : (arrived q s).holdsBack q.requester = false := opened_holdsBack heard
  exact serve_changed taken idle free
    (capturePopBody_cons ((opened_mayModify q s _ _).trans permitted) ((opened_captures q s).trans queue))

/-- A DRAINING frame may read the queue: its CAPTURE_PEEK passes the checks of R168. -/
theorem taken_capturePeek_of_draining {q : Request} {n : Link} {s : State} (frame : q.requester = .frame n)
    (draining : (s.entry n).state = .draining) (heard : Heard q s) (busy : s.busy q.requester = false) :
    Taken q kindCapturePeek false s := by
  refine ⟨heard, busy, ?_⟩
  rw [frame, refusedKind_draining draining (by decide), if_pos (by decide)]

/-- A DRAINING frame may not take a record from the queue. -/
theorem refusedKind_capturePop_of_draining {q : Request} {n : Link} {s : State} (frame : q.requester = .frame n)
    (draining : (s.entry n).state = .draining) :
    refusedKind s q.requester kindCapturePop false = some .state := by
  rw [frame, refusedKind_draining draining (by decide), if_neg (by decide)]

end Sys2Proof.Machine

open Sys2Proof Sys2Proof.Machine

/-- Settles O51: the block finds the permissions and the queue as they stood when the request came, and a DRAINING frame
is told apart before that. -/
theorem captureQueueIsFirstInFirstOut : Obligations.CaptureQueueIsFirstInFirstOut := by
  unfold Obligations.CaptureQueueIsFirstInFirstOut
  refine ⟨?peek, ?peekEmpty, ?pop, ?popEmpty, ?peekDenied, ?popDenied, ?draining⟩
  case peek =>
    intro q c rest s taken permitted queue
    rw [exec_capturePeek, serve_read taken
      (capturePeekBody_cons ((opened_mayRead q s _ _).trans permitted) ((opened_captures q s).trans queue))]
  case peekEmpty =>
    intro q s taken permitted queue
    rw [exec_capturePeek, serve_read taken
      (capturePeekBody_nil ((opened_mayRead q s _ _).trans permitted) ((opened_captures q s).trans queue))]
  case pop =>
    intro q c rest s taken permitted queue
    rw [exec_capturePop, serve_capturePop_cons taken permitted queue]
  case popEmpty =>
    intro q s taken permitted queue
    rw [exec_capturePop, serve_unchanged taken
      (capturePopBody_nil ((opened_mayModify q s _ _).trans permitted) ((opened_captures q s).trans queue))]
  case peekDenied =>
    intro q s taken denied
    rw [exec_capturePeek, serve_unchanged taken (capturePeekBody_denied ((opened_mayRead q s _ _).trans denied))]
  case popDenied =>
    intro q s taken denied
    rw [exec_capturePop, serve_unchanged taken (capturePopBody_denied ((opened_mayModify q s _ _).trans denied))]
  case draining =>
    intro q n s frame draining heard busy
    have peek : Taken q kindCapturePeek false s := taken_capturePeek_of_draining frame draining heard busy
    have pop := refusedKind_capturePop_of_draining frame draining
    exact ⟨peek, by rw [exec_capturePop, serve_refusedKind heard busy pop]⟩
end
